-- ==== Sys2Proof/Word.lean ====
section
/-! DEFINITION. The value types of the HCE: bytes, rows, register words, tables and blocks (R7, R12). -/

namespace Sys2Proof

/-- A byte (`u8`, R12): an entry of a table, a byte of MEM. -/
abbrev Byte := BitVec 8

/-- A row (`u16`, R12): one of the eight words of a lane's block state (R21). -/
abbrev Row := BitVec 16

/-- A host-visible register word, `REG_W = 32` bits (R9, R30). -/
abbrev Word := BitVec 32

/-- A 256-byte table: LUT or INV (R26, R27). -/
abbrev Table := Vector Byte 256

/-- The eight rows `ROW[0..7]` of a lane (R21). -/
abbrev Rows := Vector Row 8

/-- A 16-byte block in ascending address order (R64). -/
abbrev Block := Vector Byte 16

/-- The 255 draws of one GENLUT as ENT delivers them, before their ranges are checked (R123). -/
abbrev DrawSeq := Vector Byte 255

end Sys2Proof
end

