-- ==== Sys2Proof/Syntax.lean ====
section
/-! DEFINITION. The syntax of the HCE: one constructor of `Instr` per row of spec/opcode_table.json, the host
transactions and pseudo-instructions, and the turns of the schedule. -/

namespace Sys2Proof

/-- The eleven commands (R92), the two control requests (R96) and the six micro-operations (R97). None has an operand
field: commands take their operands from SRC, DST and LEN (R93), a micro-operation acts on its lane's rows (R97). Bit 0
of a CTRL word makes it an ABORT; its CLR bit is the one other bit that counts (R96). -/
inductive Instr where
  | genlut
  | derinv
  | encb
  | decb
  | enc
  | dec
  | zero
  | ldlut
  | ldinv
  | rdlut
  | rdinv
  /-- ABORT; `c` is the CLR bit of the same word (R34, R96). -/
  | abort (c : Bool)
  /-- CLR with the ABORT bit 0; a word with both bits is `abort true` (R34, R96). -/
  | clr
  | pack
  | ltr
  | arc
  | cs
  | rtl
  | unpack
deriving DecidableEq, Repr

/-- The six host-visible registers (R30). -/
inductive RegName where
  | cmd | status | src | dst | len | ctrl
deriving DecidableEq, Repr

/-- The register numbers of R30. -/
def RegName.number : RegName → Nat
  | .cmd => 0
  | .status => 1
  | .src => 2
  | .dst => 3
  | .len => 4
  | .ctrl => 5

/-- One host transaction (R90), or the polling loop of a host script (R101). -/
inductive HostTxn where
  /-- `W(n, w)` -/
  | wr (n : Nat) (w : Word)
  /-- `R(n)` -/
  | rd (n : Nat)
  /-- `WM(a, b)` -/
  | wm (a : Nat) (b : Byte)
  /-- `RM(a)` -/
  | rm (a : Nat)
  /-- `wait`: `R(1)` repeated until bit 0 (BUSY) reads 0. -/
  | wait
deriving DecidableEq, Repr

/-- The statements of a host script (R101). -/
inductive Stmt where
  | wr (r : RegName) (v : Word)
  | rd (r : RegName)
  | wm (a : Nat) (bytes : List Byte)
  | rm (a n : Nat)
  | wait
deriving DecidableEq, Repr

/-- The pseudo-instructions of a host script (R102). -/
inductive Pseudo where
  | genlut
  | derinv
  | encb (s d : Word)
  | decb (s d : Word)
  | enc (s d n : Word)
  | dec (s d n : Word)
  | zero
  | ldlut (s : Word)
  | ldinv (s : Word)
  | rdlut (d : Word)
  | rdinv (d : Word)
  | abort
  | clr
deriving DecidableEq, Repr

/-- The source's software operations, with tables and buffers passed by their MEM address (R102). -/
inductive SourceOp where
  | generateLut (out : Word)
  | deriveInverseLut (lut out : Word)
  | encryptBlock (lut plain out : Word)
  | decryptBlock (invLut cipher out : Word)
  | encrypt (lut inp out n : Word)
  | decrypt (invLut inp out n : Word)
deriving DecidableEq, Repr

/-- One turn of the schedule (R40): which agent moves, with the choices that are free (R202). -/
inductive Turn where
  | host
  /-- SEQ; for a dispatch, the block and the lane it picks. -/
  | seq (blk lane : Nat)
  | lane (l : Nat)
  | ent
  | reset
deriving DecidableEq, Repr

end Sys2Proof
end

