-- ==== Sys2Proof/WellFormed.lean ====
section
/-! DEFINITION. Well-formedness of what the machine is given: instructions, host transactions, ENT's draws. -/

namespace Sys2Proof

/-- Every instruction is well-formed: no instruction has an operand that its format cannot hold (R91, R96, R97). -/
def Instr.wf : Instr → Bool
  | .genlut | .derinv | .encb | .decb | .enc | .dec | .zero | .ldlut | .ldinv | .rdlut | .rdinv => true
  | .abort _ | .clr => true
  | .pack | .ltr | .arc | .cs | .rtl | .unpack => true

/-- A host transaction is well-formed for a MEM of `memBytes` bytes when its MEM address exists (R61). Every register
number is well-formed: numbers from 6 up are unmapped, not illegal (R35). -/
def HostTxn.wf (memBytes : Nat) : HostTxn → Bool
  | .wr _ _ => true
  | .rd _ => true
  | .wm a _ => decide (a < memBytes)
  | .rm a => decide (a < memBytes)
  | .wait => true

/-- The law of ENT's draws: `i ≤ j[i]` (R123, R262); `j[i] ≤ 255` holds because a draw is a byte. -/
def drawsLegal (j : DrawSeq) : Bool :=
  (List.finRange 255).all fun i => decide (i.val ≤ j[i].toNat)

/-- The 255 draws of one GENLUT, with their ranges (R123). -/
structure Draws where
  seq : DrawSeq
  legal : drawsLegal seq = true
deriving DecidableEq, Repr

/-- ENT's answer to one GENLUT (R262). -/
inductive EntAnswer where
  | unavailable
  | available (j : Draws)
deriving DecidableEq, Repr

end Sys2Proof
end

