-- ==== Sys2Proof/Decode.lean ====
section
/-! DEFINITION. The three encodings CMDW (R91, R92), CTRLW (R96) and PH (R97): the decoder, total and rejecting by
name, and the encoder. -/

namespace Sys2Proof

/-- A code together with the place it stands in, which fixes its format: a word written to CMD or held by it, a word
written to CTRL, or a lane's phase code. -/
inductive Code where
  | cmdw (w : Word)
  | ctrlw (w : Word)
  | ph (p : BitVec 3)
deriving DecidableEq, Repr

/-- Why a code is no instruction. -/
inductive Reject where
  /-- Bits 31:4 of a command word are not all 0 (R95). -/
  | reservedBits
  /-- Opcode 0x0 or 0xC to 0xF (R95). -/
  | reservedOpcode
  /-- A CTRL word with ABORT = 0 and CLR = 0 (R96): it does nothing. -/
  | noRequest
  /-- Phase code 0, IDLE: the lane takes no step (R185). -/
  | idlePhase
  /-- Phase code 7, which never occurs (R97). -/
  | noPhase
deriving DecidableEq, Repr

/-- The opcode map of R92. -/
def decodeOp (op : BitVec 4) : Except Reject Instr :=
  match op.toNat with
  | 1 => .ok .genlut
  | 2 => .ok .derinv
  | 3 => .ok .encb
  | 4 => .ok .decb
  | 5 => .ok .enc
  | 6 => .ok .dec
  | 7 => .ok .zero
  | 8 => .ok .ldlut
  | 9 => .ok .ldinv
  | 10 => .ok .rdlut
  | 11 => .ok .rdinv
  | _ => .error .reservedOpcode

/-- A command word: bits 31:4 zero, opcode in bits 3:0 (R91, R100). -/
def decodeCmdw (w : Word) : Except Reject Instr :=
  if w.extractLsb' 4 28 = 0 then decodeOp (w.extractLsb' 0 4) else .error .reservedBits

/-- A control word: bit 0 ABORT, bit 1 CLR, bits 31:2 ignored (R96). -/
def decodeCtrlw (w : Word) : Except Reject Instr :=
  if w.getLsbD 0 then .ok (.abort (w.getLsbD 1))
  else if w.getLsbD 1 then .ok .clr
  else .error .noRequest

/-- A phase code (R97). -/
def decodePh (p : BitVec 3) : Except Reject Instr :=
  match p.toNat with
  | 0 => .error .idlePhase
  | 1 => .ok .pack
  | 2 => .ok .ltr
  | 3 => .ok .arc
  | 4 => .ok .cs
  | 5 => .ok .rtl
  | 6 => .ok .unpack
  | _ => .error .noPhase

/-- The decoder. -/
def decode : Code → Except Reject Instr
  | .cmdw w => decodeCmdw w
  | .ctrlw w => decodeCtrlw w
  | .ph p => decodePh p

/-- The encoder, from the same tables; the ignored bits of a control word are written 0. -/
def encode : Instr → Code
  | .genlut => .cmdw 0x1
  | .derinv => .cmdw 0x2
  | .encb => .cmdw 0x3
  | .decb => .cmdw 0x4
  | .enc => .cmdw 0x5
  | .dec => .cmdw 0x6
  | .zero => .cmdw 0x7
  | .ldlut => .cmdw 0x8
  | .ldinv => .cmdw 0x9
  | .rdlut => .cmdw 0xA
  | .rdinv => .cmdw 0xB
  | .abort c => .ctrlw (if c then 0x3 else 0x1)
  | .clr => .ctrlw 0x2
  | .pack => .ph 1
  | .ltr => .ph 2
  | .arc => .ph 3
  | .cs => .ph 4
  | .rtl => .ph 5
  | .unpack => .ph 6

/-- A code with the bits its format ignores cleared: bits 31:2 of a control word (R96). -/
def ignoredCleared : Code → Code
  | .cmdw w => .cmdw w
  | .ctrlw w => .ctrlw (w &&& 3)
  | .ph p => .ph p

/-- The code that a row of spec/opcode_table.json of `nbits` bits stands for when its bits are `w`: 8 bits hold a phase
code; 32 bits hold a command word if they decode as one, else a control word. DESIGN CHOICE (log 12): the number alone
does not say which register the word is written to, and 0x1 and 0x2 are words of both formats. -/
def tableCode (nbits w : Nat) : Option Code :=
  if nbits ≤ 8 then
    if w < 8 then some (.ph (BitVec.ofNat 3 w)) else none
  else if w < 2 ^ 32 then
    match decodeCmdw (BitVec.ofNat 32 w) with
    | .ok _ => some (.cmdw (BitVec.ofNat 32 w))
    | .error _ =>
      match decodeCtrlw (BitVec.ofNat 32 w) with
      | .ok _ => some (.ctrlw (BitVec.ofNat 32 w))
      | .error _ => some (.cmdw (BitVec.ofNat 32 w))
  else none

/-- The instruction the decoder reads from the bits `w` of a table row of `nbits` bits. -/
def decodeTableWord (nbits w : Nat) : Option Instr :=
  match tableCode nbits w with
  | some c =>
    match decode c with
    | .ok i => some i
    | .error _ => none
  | none => none

end Sys2Proof
end

