-- ==== Sys2Proof/Config.lean ====
section
/-! DEFINITION. The constants of the HCE (R7, R8), the values this model names where the spec leaves a parameter or
a power-up content open, and the one free value of the model. -/

namespace Sys2Proof.Config

/-- `BLOCK_LEN`: bytes per block (R7). -/
def blockLen : Nat := 16

/-- `N_ROUNDS` (R7). -/
def nRounds : Nat := 8

/-- The table length (R7). -/
def tableLen : Nat := 256

/-- The round-constant row vector `RC[0..7]` (R8). -/
def rc : Rows := #v[0x8000, 0x2000, 0x0800, 0x0200, 0x0080, 0x0020, 0x0008, 0x0002]

/-- `N_LANES` of `State.reset`. DESIGN CHOICE (log 3): the spec leaves the parameter open (R9). In any other state the
number of lanes is the length of the state's list of lanes, whatever it is. Unsafe only for a claim about
`State.reset` itself. -/
def resetLanes : Nat := 2

/-- `MEM_BYTES` of `State.reset`. DESIGN CHOICE (log 3): the spec leaves the parameter open (R9). Any other state
carries its own value. Unsafe only for a claim about `State.reset` itself. -/
def resetMemBytes : Nat := 4096

/-- What an address of MEM that the memory does not list reads as. DESIGN CHOICE (log 4), unsafe: MEM is unspecified
after power-up (R41). -/
def unlistedByte : Byte := 0

/-- An entry of a table that nothing has written since power-up. DESIGN CHOICE (log 5), unsafe: the tables are
unspecified after reset (R41); no command can read them there, since LUT_V = INV_V = 0. -/
def powerUpTableByte : Byte := 0

/-- The free value (`any` of R15): the n-th value drawn where the spec fixes none (log 6). It has no body, so nothing
can be proved of it but that it is a byte. -/
opaque anyByte : Nat → Byte

end Sys2Proof.Config
end

