-- ==== Sys2Proof/Machine/State.lean ====
section
/-! DEFINITION. The state of the HCE (R20), the model's own fields for its environment, and the state after reset
(R41). -/

namespace Sys2Proof.Machine

/-- Why a step can stop with a fault. -/
inductive Fault where
  /-- The HOST reads or writes a MEM address at or above MEM_BYTES, which does not exist (R61). Raised by the host
  transactions WM and RM. Safe: the spec gives no outcome, the model stops (log 11). -/
  | hostAddress
  /-- The engine would touch a MEM address at or above MEM_BYTES. Raised by PACK, UNPACK, LDLUT, LDINV, RDLUT, RDINV
  only in states that no run reaches: the issue checks exclude it (R62, R69). Safe (log 11). -/
  | engineAddress
deriving DecidableEq, Repr

/-- Why a step can be refused. -/
inductive Refusal where
  /-- The instruction has no meaning in the model. Raised by no arm of `exec`. Safe. -/
  | notModelled (mnemonic : String)
deriving DecidableEq, Repr

/-- The outcome of one step of the HCE. -/
abbrev Result (σ : Type) := Host.Outcome σ Fault Refusal

/-- `DIR` of a lane (R23): 0 encrypt, 1 decrypt. -/
inductive Dir where
  | enc
  | dec
deriving DecidableEq, Repr

/-- The phases in which a lane's rows hold a value: all but IDLE and PACK (R97). -/
inductive Stage where
  | ltr
  | arc
  | cs
  | rtl
  | unpack
deriving DecidableEq, Repr

/-- The control registers DIR, BLK, RND of an active lane (R23). -/
structure LaneRegs where
  dir : Dir
  blk : Nat
  rnd : Fin 8
deriving DecidableEq, Repr

/-- One lane (R20 to R24, R264), by what its registers hold; a register that holds no value (R16) has no component to
read. The register ACTIVE, PH and the rest are the views `Lane.active`, `Lane.phase`, `Lane.regs?`, `Lane.rows?`. -/
inductive Lane where
  /-- ACTIVE = 0, PH = IDLE; ROW, DIR, BLK, RND hold no value (R21, R23). -/
  | idle
  /-- ACTIVE = 1, PH = PACK; ROW holds no value yet (R185). -/
  | pack (r : LaneRegs)
  /-- ACTIVE = 1, PH = LTR, ARC, CS, RTL or UNPACK. -/
  | run (st : Stage) (r : LaneRegs) (rows : Rows)
deriving DecidableEq, Repr

/-- The error codes of STATUS (R241). -/
inductive ECode where
  | none
  | invalidLength
  | invalidLut
  | entropyUnavailable
  | notKeyed
  | illegalCommand
  | badAddress
  | badAlias
  | aborted
deriving DecidableEq, Repr

/-- The validity flags LUT_V, INV_V, ZD together (R28). -/
structure KeyFlags where
  lutV : Bool
  invV : Bool
  zd : Bool
deriving DecidableEq, Repr

/-- What a read transaction has returned to the HOST (R90). -/
inductive Reply where
  | word (w : Word)
  | byte (b : Byte)
deriving DecidableEq, Repr

/-- The choice of the schedule for the step that is being taken (R202). -/
structure Selection where
  blk : Nat
  lane : Nat
deriving DecidableEq, Repr

/-- Buffer memory MEM (R38): the bytes that differ from what an unlisted address reads as, addresses strictly
rising. -/
abbrev Memory := List Host.Cell

/-- The state of the HCE (R20) with its parameters (R9) and its environment (R40). -/
structure State where
  /-- register CMD (R31) -/
  cmd : Word
  /-- STATUS bit 0 (R32) -/
  busy : Bool
  /-- STATUS bit 1 (R32) -/
  done : Bool
  /-- STATUS bit 2 (R32) -/
  err : Bool
  /-- STATUS bits 11:8 (R32, R241) -/
  ecode : ECode
  /-- flag LUT_V (R28) -/
  lutV : Bool
  /-- flag INV_V (R28) -/
  invV : Bool
  /-- flag ZD (R28) -/
  zd : Bool
  /-- register SRC (R33) -/
  src : Word
  /-- register DST (R33) -/
  dst : Word
  /-- register LEN (R33) -/
  len : Word
  /-- table LUT (R26) -/
  lut : Table
  /-- table INV (R27) -/
  inv : Table
  /-- the lanes, N_LANES of them (R9, R264) -/
  lanes : List Lane
  /-- PEND (R37) -/
  pend : List Nat
  /-- MEM (R38) -/
  mem : Memory
  /-- parameter MEM_BYTES (R9); no step changes it -/
  memBytes : Nat
  /-- model's own: the HOST transactions still to be made (log 2) -/
  script : List HostTxn
  /-- model's own: what the HOST's reads returned, newest first (log 2) -/
  replies : List Reply
  /-- model's own: the turns the schedule still holds (log 1) -/
  sched : List Turn
  /-- model's own: the schedule's choice for the step being taken (log 1) -/
  sel : Selection
  /-- model's own: the answers ENT will give (log 14) -/
  entScript : List EntAnswer
  /-- model's own: the answer ENT has given to the running GENLUT (log 14) -/
  entAns : Option EntAnswer
  /-- model's own: addresses the HOST touched inside the running command's buffers (log 10) -/
  contested : List Nat
  /-- model's own: how many free values have been drawn (log 6) -/
  free : Nat
deriving DecidableEq, Repr

/-- The machine right after power-up and reset (R41): every field as the spec states it; where the spec states no value
(the tables, MEM, the parameters, the model's own fields) the value its log entry names. -/
def State.reset : State where
  cmd := 0
  busy := false
  done := false
  err := false
  ecode := .none
  lutV := false
  invV := false
  zd := false
  src := 0
  dst := 0
  len := 0
  lut := Vector.replicate 256 Config.powerUpTableByte
  inv := Vector.replicate 256 Config.powerUpTableByte
  lanes := List.replicate Config.resetLanes .idle
  pend := []
  mem := []
  memBytes := Config.resetMemBytes
  script := []
  replies := []
  sched := []
  sel := ⟨0, 0⟩
  entScript := []
  entAns := none
  contested := []
  free := 0

end Sys2Proof.Machine
end

