-- ==== Sys2Proof/Machine/Operands.lean ====
section
/-! DEFINITION. The operands of the HCE: which command uses which register and table (R93), the regions of MEM it
reads and writes (R64, R69), and how operands are assembled from bytes and bits (R63, R94). -/

namespace Sys2Proof.Machine

/-! ### Operand use of the commands (R93) -/

/-- How many bytes of MEM a command moves at an address register (R93). -/
inductive Extent where
  | unused
  | bytes (n : Nat)
  | len
deriving DecidableEq, Repr

/-- The table a command needs valid at issue (R93, column "needs"). -/
inductive TableNeed where
  | nothing
  | lut
  | inv
deriving DecidableEq, Repr

/-- One row of the table of R93. -/
structure Profile where
  src : Extent
  dst : Extent
  needs : TableNeed
deriving DecidableEq, Repr

/-- The table of R93; control requests and micro-operations are no commands. -/
def profileOf : Instr → Option Profile
  | .genlut => some ⟨.unused, .unused, .nothing⟩
  | .derinv => some ⟨.unused, .unused, .lut⟩
  | .encb => some ⟨.bytes 16, .bytes 16, .lut⟩
  | .decb => some ⟨.bytes 16, .bytes 16, .inv⟩
  | .enc => some ⟨.len, .len, .lut⟩
  | .dec => some ⟨.len, .len, .inv⟩
  | .zero => some ⟨.unused, .unused, .nothing⟩
  | .ldlut => some ⟨.bytes 256, .unused, .nothing⟩
  | .ldinv => some ⟨.bytes 256, .unused, .nothing⟩
  | .rdlut => some ⟨.unused, .bytes 256, .lut⟩
  | .rdinv => some ⟨.unused, .bytes 256, .inv⟩
  | .abort _ | .clr => none
  | .pack | .ltr | .arc | .cs | .rtl | .unpack => none

/-- The word that starts a command (R92). -/
def cmdWord (i : Instr) : Word :=
  match encode i with
  | .cmdw w => w
  | .ctrlw w => w
  | .ph _ => 0

/-- The number of bytes an extent stands for with the LEN register holding `len` (R69); 0 where none is moved. -/
def Extent.size (e : Extent) (len : Word) : Nat :=
  match e with
  | .unused => 0
  | .bytes n => n
  | .len => len.toNat

/-- Whether ENC and DEC's length check applies: the command takes its size from LEN (R242). -/
def Profile.bulk (p : Profile) : Bool := decide (p.src = .len)

/-- The direction in which a cipher command runs its lanes (R185); a table command runs none. -/
def dirOf? : Instr → Option Dir
  | .encb | .enc => some .enc
  | .decb | .dec => some .dec
  | _ => none

/-- NBLK, the number of blocks of a command (R37): 1 for ENCB and DECB, LEN / 16 for ENC and DEC, none for a table
command. -/
def blockCount (i : Instr) (len : Word) : Nat :=
  match i with
  | .encb | .decb => 1
  | .enc | .dec => len.toNat / Config.blockLen
  | _ => 0

/-! ### Regions of MEM -/

/-- Address `a` lies in the region of `n` bytes at `base`. -/
abbrev inRegion (a base n : Nat) : Prop := base ≤ a ∧ a < base + n

/-- The first byte of block `k` of the buffer at `base` (R64), in unbounded integers (R61). -/
def blockAddr (base : Word) (k : Nat) : Nat := base.toNat + Config.blockLen * k

/-- R69 for one address register: the region lies inside MEM; a command that moves no byte is not checked (R205). -/
abbrev regionInMem (base : Word) (n memBytes : Nat) : Prop := n = 0 ∨ base.toNat + n ≤ memBytes

/-- R70: the two regions of `n` bytes are identical or disjoint. -/
abbrev aliasLegal (src dst : Word) (n : Nat) : Prop :=
  dst = src ∨ src.toNat + n ≤ dst.toNat ∨ dst.toNat + n ≤ src.toNat

/-! ### Operands assembled from bytes (R63, R94 a) -/

/-- The high byte `H` of a row (R150). -/
def hiByte (x : Row) : Byte := x.extractLsb' 8 8

/-- The low byte `L` of a row (R150). -/
def loByte (x : Row) : Byte := x.extractLsb' 0 8

/-- A row from its high and low byte: `(h << 8) | l` (R63). -/
def rowOf (h l : Byte) : Row := h ++ l

/-- `pack`: `row[i] = (b[2i] << 8) | b[2i+1]` (R63, R151). -/
def packRows (b : Block) : Rows :=
  Vector.ofFn fun i => rowOf (b[2 * i.val]'(by omega)) (b[2 * i.val + 1]'(by omega))

/-- `unpack`: `b[2i] = row[i] >> 8; b[2i+1] = row[i] & 0xFF` (R63, R152). -/
def unpackRows (r : Rows) : Block :=
  Vector.ofFn fun k =>
    if k.val % 2 = 0 then hiByte (r[k.val / 2]'(by omega)) else loByte (r[k.val / 2]'(by omega))

/-! ### Table and column indices (R94 c, d) -/

/-- `T[a]` (R15): every byte is an index. -/
def look (t : Table) (a : Byte) : Byte := t[a.toNat]'(by have := a.isLt; omega)

/-- An index of LTR: `((t << 2) & 0xFF) | Lk`, that is `t[5:0] ‖ Lk` (R154, R155); the shift is 8 bits wide. -/
def ltrIndex (t lk : Byte) : Byte := (t <<< 2) ||| lk

/-- An index of RTL: `Hk | (t >> 2)`, that is `Hk[7:6] ‖ t[7:2]` (R156, R157). -/
def rtlIndex (hk t : Byte) : Byte := hk ||| (t >>> 2)

/-- Matrix bit (row r, column c): bit `15 - c` of row r (R22). -/
def matrixBit (rows : Rows) (r : Fin 8) (c : Fin 16) : Bool := rows[r].getLsbD (15 - c.val)

/-- The gathered column c: bit `7 - i` is the bit of row i (R94 d, R158). -/
def gatherColumn (rows : Rows) (c : Fin 16) : Byte :=
  BitVec.ofFnLE fun b : Fin 8 => matrixBit rows b.rev c

/-- Scatter (R158): row i gets bit `7 - i` of each substituted column, at bit `15 - c`. -/
def scatterColumns (cols : Vector Byte 16) : Rows :=
  Vector.ofFn fun i => BitVec.ofFnLE fun b : Fin 16 => (cols[15 - b.val]'(by omega)).getLsbD (7 - i.val)

/-- The table a lane uses: LUT when DIR = 0, INV when DIR = 1 (R150). -/
def State.tableOf (s : State) : Dir → Table
  | .enc => s.lut
  | .dec => s.inv

/-- The constant index of ARC: RND when DIR = 0, `7 - RND` when DIR = 1 (R160, R184). -/
def arcIndex (r : LaneRegs) : Nat :=
  match r.dir with
  | .enc => r.rnd.val
  | .dec => 7 - r.rnd.val

end Sys2Proof.Machine
end

