-- ==== Sys2Proof/Machine/Flags.lean ====
section
/-! DEFINITION. The flags and the status word of the HCE: KS (R29), STATUS (R32), ECODE (R241), the flag changes of the
commands (R28). -/

namespace Sys2Proof.Machine

/-- The key state KS (R29). -/
inductive KeyState where
  | uninit
  | oneTable
  | keyed
  | zeroised
deriving DecidableEq, Repr

/-- The KS code of R29; `oneTable` is PARTIAL. -/
def KeyState.code : KeyState → BitVec 2
  | .uninit => 0
  | .oneTable => 1
  | .keyed => 2
  | .zeroised => 3

/-- The key state of three flags, by the conditions of R29. -/
def KeyFlags.keyState (f : KeyFlags) : KeyState :=
  match f.lutV, f.invV with
  | true, true => .keyed
  | true, false => .oneTable
  | false, true => .oneTable
  | false, false => if f.zd then .zeroised else .uninit

/-- The validity flags of a state (R28). -/
def State.keyFlags (s : State) : KeyFlags := ⟨s.lutV, s.invV, s.zd⟩

/-- `s` with other validity flags. -/
def State.setKeyFlags (s : State) (f : KeyFlags) : State :=
  { s with lutV := f.lutV, invV := f.invV, zd := f.zd }

/-- ECODE numbers (R241). -/
def ECode.code : ECode → BitVec 4
  | .none => 0
  | .invalidLength => 1
  | .invalidLut => 2
  | .entropyUnavailable => 3
  | .notKeyed => 4
  | .illegalCommand => 5
  | .badAddress => 6
  | .badAlias => 7
  | .aborted => 8

/-- STATUS as it reads (R32): bits 31:12 zero, ECODE, bit 7 zero, KS, INV_V, LUT_V, ERR, DONE, BUSY. -/
def statusWord (s : State) : Word :=
  (0 : BitVec 20) ++ s.ecode.code ++ (0 : BitVec 1) ++ s.keyFlags.keyState.code ++ BitVec.ofBool s.invV ++
    BitVec.ofBool s.lutV ++ BitVec.ofBool s.err ++ BitVec.ofBool s.done ++ BitVec.ofBool s.busy

/-- The flag changes at acceptance, column "at acc" of R28. -/
def accFlags (i : Instr) (f : KeyFlags) : KeyFlags :=
  match i with
  | .genlut | .ldlut => ⟨false, false, false⟩
  | .derinv => ⟨f.lutV, false, f.zd⟩
  | .ldinv => ⟨f.lutV, false, false⟩
  | .zero => ⟨false, false, f.zd⟩
  | _ => f

/-- The flag changes at completion without error, column "at ok" of R28. -/
def okFlags (i : Instr) (f : KeyFlags) : KeyFlags :=
  match i with
  | .genlut | .ldlut => ⟨true, f.invV, f.zd⟩
  | .derinv | .ldinv => ⟨f.lutV, true, f.zd⟩
  | .zero => ⟨f.lutV, f.invV, true⟩
  | _ => f

/-- The validity flag that a command needs is 1 (R93, R245). -/
def TableNeed.met (n : TableNeed) (f : KeyFlags) : Bool :=
  match n with
  | .nothing => true
  | .lut => f.lutV
  | .inv => f.invV

end Sys2Proof.Machine
end

