-- ==== Sys2Proof/Machine/Ops.lean ====
section
/-! DEFINITION. The operations shared by the meanings: MEM, free values, lanes, the buffers of a running command, the
issue of a command (R98, R252), taking an error (R254, R255), completion (R99), clearing an error (R225, R257), abort
(R224) and reset (R280). -/

namespace Sys2Proof.Machine

/-! ### MEM (R38, R62) -/

/-- `MEM[a]`. -/
def Memory.read : Memory → Nat → Byte
  | [], _ => Config.unlistedByte
  | (x, b) :: rest, a => if x = a then b else Memory.read rest a

/-- `MEM[a] <- b`, keeping the canonical form. -/
def Memory.write : Memory → Nat → Byte → Memory
  | [], a, b => if b = Config.unlistedByte then [] else [(a, b)]
  | (x, c) :: rest, a, b =>
    if a < x then (if b = Config.unlistedByte then (x, c) :: rest else (a, b) :: (x, c) :: rest)
    else if a = x then (if b = Config.unlistedByte then rest else (a, b) :: rest)
    else (x, c) :: Memory.write rest a b

/-- `MemRead(a, n)` (R62): n bytes in ascending address order. -/
def Memory.readBytes (m : Memory) (a n : Nat) : Vector Byte n := Vector.ofFn fun k => m.read (a + k.val)

/-- `MemWrite(a, n, v)` (R62). -/
def Memory.writeBytes (m : Memory) (a : Nat) : List Byte → Memory
  | [] => m
  | b :: bs => Memory.writeBytes (m.write a b) (a + 1) bs

/-- The canonical form of a memory: addresses strictly rising, no entry equal to what an unlisted address reads as. -/
def Memory.wf (m : Memory) : Bool :=
  decide (m.Pairwise fun x y => x.1 < y.1) && m.all fun c => decide (c.2 ≠ Config.unlistedByte)

/-- Every listed address exists (R61). -/
def Memory.below (m : Memory) (memBytes : Nat) : Bool := m.all fun c => decide (c.1 < memBytes)

/-! ### Free values (`any`, R15; log 6) -/

/-- The 256 free bytes that follow the first `n` drawn. -/
@[irreducible] def anyTable (n : Nat) : Table := Vector.ofFn fun i => Config.anyByte (n + i.val)

/-- LUT[0..255] <- any. -/
def lutAny (s : State) : State := { s with lut := anyTable s.free, free := s.free + Config.tableLen }

/-- INV[0..255] <- any. -/
def invAny (s : State) : State := { s with inv := anyTable s.free, free := s.free + Config.tableLen }

/-! ### Lanes -/

/-- Register ACTIVE (R23). -/
def Lane.active : Lane → Bool
  | .idle => false
  | .pack _ => true
  | .run _ _ _ => true

/-- The registers DIR, BLK, RND where they hold a value (R23). -/
def Lane.regs? : Lane → Option LaneRegs
  | .idle => none
  | .pack r => some r
  | .run _ r _ => some r

/-- The registers ROW[0..7] where they hold a value (R21). -/
def Lane.rows? : Lane → Option Rows
  | .idle => none
  | .pack _ => none
  | .run _ _ rows => some rows

/-- The phase code of a stage (R97). -/
def Stage.code : Stage → BitVec 3
  | .ltr => 2
  | .arc => 3
  | .cs => 4
  | .rtl => 5
  | .unpack => 6

/-- Register PH (R97). -/
def Lane.phase : Lane → BitVec 3
  | .idle => 0
  | .pack _ => 1
  | .run st _ _ => st.code

/-- The lane whose turn it is, or that the dispatcher has picked. -/
def State.selLane (s : State) : Option Lane := s.lanes[s.sel.lane]?

/-- That lane with other contents. -/
def State.setSelLane (s : State) (l : Lane) : State := { s with lanes := s.lanes.set s.sel.lane l }

/-- No lane is active. -/
def State.allIdle (s : State) : Bool := s.lanes.all fun l => !l.active

/-- The dispatcher activates a lane for block `k` (R185). -/
def activate (d : Dir) (k : Nat) : Lane := .pack ⟨d, k, 0⟩

/-! ### The running command and its buffers -/

/-- The command whose word CMD holds (R31): while BUSY = 1, the running command (log 17). -/
def State.running (s : State) : Option Instr :=
  match decode (.cmdw s.cmd) with
  | .ok i => some i
  | .error _ => none

/-- How many bytes from SRC the command in CMD reads. -/
def State.srcSize (s : State) : Nat :=
  match s.running with
  | some i => match profileOf i with
    | some p => p.src.size s.len
    | none => 0
  | none => 0

/-- How many bytes from DST the command in CMD writes. -/
def State.dstSize (s : State) : Nat :=
  match s.running with
  | some i => match profileOf i with
    | some p => p.dst.size s.len
    | none => 0
  | none => 0

/-- `a` is in the source region of the command that runs (R75). -/
def State.inSource (s : State) (a : Nat) : Bool := s.busy && decide (inRegion a s.src.toNat s.srcSize)

/-- `a` is in the destination region of the command that runs (R75). -/
def State.inDest (s : State) (a : Nat) : Bool := s.busy && decide (inRegion a s.dst.toNat s.dstSize)

/-- The HOST touches a byte of the running command's buffers where R75 forbids it (log 10). -/
def contest (a : Nat) (s : State) : State :=
  { s with contested := if a ∈ s.contested then s.contested else a :: s.contested }

/-- The end of a command's claim on its buffers: the final contents of every contested byte are `any` (R75). -/
def settleBytes (free : Nat) : List Nat → Memory → Memory
  | [], m => m
  | a :: rest, m => settleBytes (free + 1) rest (m.write a (Config.anyByte free))

/-- `settleBytes` on a state; nothing where no byte is contested. -/
def settle (s : State) : State :=
  { s with mem := settleBytes s.free s.contested s.mem, free := s.free + s.contested.length, contested := [] }

/-- What the engine's MemRead(a, n) returns: a contested byte reads as `any` (R75). -/
def engineBytes (s : State) (a n : Nat) : Vector Byte n :=
  Vector.ofFn fun k =>
    if a + k.val ∈ s.contested then Config.anyByte (s.free + k.val) else s.mem.read (a + k.val)

/-- The free values that such a read has drawn. -/
def afterEngineRead (n : Nat) (s : State) : State :=
  { s with free := if s.contested = [] then s.free else s.free + n }

/-- The engine's MemWrite(a, n, v). -/
def engineWrite (a : Nat) (bytes : List Byte) (s : State) : State :=
  { s with mem := s.mem.writeBytes a bytes }

/-- The region of `n` bytes at `a` exists (R62). -/
abbrev State.holds (s : State) (a n : Nat) : Prop := a + n ≤ s.memBytes

/-! ### Taking an error, and the ends of a command -/

/-- Issue-time rejection (R254): DONE, ERR, ECODE and nothing else. -/
def reject (e : ECode) (s : State) : State := { s with done := false, err := true, ecode := e }

/-- What every end of a command does besides its status: BUSY <- 0, no request to ENT outstanding (R103, log 15), the
buffers belong to the HOST again (R73, R75). -/
def endCommand (s : State) : State := settle { s with busy := false, entAns := none }

/-- Run-time error (R255); the table being written is made `any` by the caller. -/
def runError (e : ECode) (s : State) : State := endCommand (reject e s)

/-- Completion (R99): BUSY <- 0, DONE <- 1, the "at ok" flag changes of R28. -/
def complete (i : Instr) (s : State) : State :=
  endCommand ({ s with done := true }.setKeyFlags (okFlags i s.keyFlags))

/-- CLR while idle (R225), the HOST's way to clear an error (R257). -/
def clearStatus (s : State) : State := { s with done := false, err := false, ecode := .none }

/-! ### Issue (R98, R252) -/

/-- Check 2 of R252: InvalidLength. -/
abbrev lengthBad (p : Profile) (s : State) : Prop := p.bulk = true ∧ s.len.toNat % Config.blockLen ≠ 0

/-- Check 3 of R252: NotKeyed. -/
abbrev keyMissing (p : Profile) (s : State) : Prop := p.needs.met s.keyFlags = false

/-- Check 4 of R252: BadAddress. -/
abbrev addressBad (p : Profile) (s : State) : Prop :=
  ¬ (regionInMem s.src (p.src.size s.len) s.memBytes ∧ regionInMem s.dst (p.dst.size s.len) s.memBytes)

/-- Check 5 of R252: BadAlias, for a command that both reads and writes MEM. -/
abbrev aliasBad (p : Profile) (s : State) : Prop :=
  0 < p.src.size s.len ∧ 0 < p.dst.size s.len ∧ ¬ aliasLegal s.src s.dst (p.dst.size s.len)

/-- The first failing check of R252 after the decoding of the word (its check 1, IllegalCommand). -/
def issueError (p : Profile) (s : State) : Option ECode :=
  if lengthBad p s then some .invalidLength
  else if keyMissing p s then some .notKeyed
  else if addressBad p s then some .badAddress
  else if aliasBad p s then some .badAlias
  else none

/-- Acceptance (R98). The request to ENT starts unanswered (R262). -/
def accept (i : Instr) (s : State) : State :=
  { s with
      cmd := cmdWord i, done := false, err := false, ecode := .none, busy := true,
      pend := List.range (blockCount i s.len), entAns := none }.setKeyFlags (accFlags i s.keyFlags)

/-- The issue of a command (R98): rejection or acceptance, one indivisible step. -/
def issue (i : Instr) (s : State) : State :=
  match profileOf i with
  | none => s
  | some p =>
    match issueError p s with
    | some e => reject e s
    | none => accept i s

/-- The two moments of a command (log 9): its issue while BUSY = 0, the SEQ step `work` while it runs. While another
command runs it has no step (log 8). -/
def command (i : Instr) (work : State → Result State) (s : State) : Result State :=
  if s.busy = false then .next (issue i s)
  else if s.running = some i then work s
  else .next s

/-! ### SEQ for the cipher commands (R202, R203) -/

/-- The dispatch step (R202): block `sel.blk` of PEND to the idle lane `sel.lane`; a choice that is no pending block or
no idle lane is not enabled (log 8). -/
def dispatch (d : Dir) (s : State) : State :=
  if s.sel.blk ∈ s.pend ∧ s.selLane = some .idle then
    { s with pend := s.pend.erase s.sel.blk }.setSelLane (activate d s.sel.blk)
  else s

/-- SEQ's step for ENCB, DECB, ENC, DEC: a dispatch while blocks are pending, completion when all are done. -/
def cipherWork (i : Instr) (d : Dir) (s : State) : Result State :=
  if s.pend ≠ [] then .next (dispatch d s)
  else if s.allIdle = true then .next (complete i s)
  else .next s

/-! ### Table transfers (R128 to R131) -/

/-- 256 bytes of MEM at SRC, for LDLUT and LDINV. -/
@[irreducible] def loadTable (s : State) : Table := engineBytes s s.src.toNat 256

/-- A table to the 256 bytes of MEM at DST, for RDLUT and RDINV. -/
def storeTable (t : Table) (s : State) : State := engineWrite s.dst.toNat t.toList s

/-! ### Control requests -/

/-- The table that an abort leaves unspecified (R224). -/
def spoilTable (i : Option Instr) (s : State) : State :=
  match i with
  | some .genlut => lutAny s
  | some .ldlut => lutAny s
  | some .derinv => invAny s
  | some .ldinv => invAny s
  | _ => s

/-- Every lane idle, PEND empty (R224, R280). -/
def stopLanes (s : State) : State := { s with lanes := List.replicate s.lanes.length .idle, pend := [] }

/-- ABORT of the running command (R224). -/
def abortRunning (s : State) : State :=
  runError .aborted (spoilTable s.running (stopLanes s))

/-! ### Reset (R41, R280, R281) -/

/-- The reset event: every register, flag and lane as R41 says, the tables unspecified, MEM not changed (but for bytes
contested when the reset ended a command, R75), the parameters and the environment's own data untouched (log 16). -/
def resetEvent (s : State) : State :=
  let t := invAny (lutAny (settle s))
  { stopLanes t with
      cmd := 0, busy := false, done := false, err := false, ecode := .none, lutV := false, invV := false, zd := false,
      src := 0, dst := 0, len := 0, entAns := none }

/-! ### ENT (R262, R263) -/

/-- ENT's turn: it gives its next answer to a GENLUT that waits for one, and otherwise does nothing. -/
def entStep (s : State) : State :=
  if s.busy = true ∧ s.running = some .genlut ∧ s.entAns = none then
    match s.entScript with
    | a :: rest => { s with entAns := some a, entScript := rest }
    | [] => s
  else s

end Sys2Proof.Machine
end

