-- ==== Sys2Proof/Machine/CipherCommands.lean ====
section
/-! DEFINITION. The block commands ENCB, DECB (42_block_cipher.md) and the bulk commands ENC, DEC (43_bulk.md). -/

namespace Sys2Proof.Machine

/-- ENCB (R182). -/
def execEncb (s : State) : Result State := command .encb (cipherWork .encb .enc) s

/-- DECB (R183). -/
def execDecb (s : State) : Result State := command .decb (cipherWork .decb .dec) s

/-- ENC (R200). -/
def execEnc (s : State) : Result State := command .enc (cipherWork .enc .enc) s

/-- DEC (R201). -/
def execDec (s : State) : Result State := command .dec (cipherWork .dec .dec) s

end Sys2Proof.Machine
end

