-- ==== Sys2Proof/Machine/Shuffle.lean ====
section
/-! DEFINITION. The table generator's functions: the Fisher–Yates shuffle (R122), permutations and the inverse table
(R126). -/

namespace Sys2Proof.Machine

/-- The identity table, where the shuffle starts (R122, step 1). -/
@[irreducible] def identityTable : Table := Vector.ofFn fun i => BitVec.ofNat 8 i.val

/-- Swap the entries at two indices (R122, step 2). -/
def swapEntries (t : Table) (a b : Byte) : Table :=
  (t.set a.toNat (look t b) (by have := a.isLt; omega)).set b.toNat (look t a) (by have := b.isLt; omega)

/-- The table after the iterations i = 0 to n - 1 of the shuffle. -/
def shuffleSteps (j : DrawSeq) : Nat → Table
  | 0 => identityTable
  | n + 1 =>
    if h : n < 255 then swapEntries (shuffleSteps j n) (BitVec.ofNat 8 n) j[n] else shuffleSteps j n

/-- `FY(j)` (R122): 255 iterations, i = 0 to 254. -/
@[irreducible] def fisherYates (j : DrawSeq) : Table := shuffleSteps j 255

/-- The table is a permutation of 0 to 255: every value occurs exactly once (R126). -/
abbrev IsPermutation (t : Table) : Prop := ∀ v : Byte, t.toList.count v = 1

/-- The table after the iterations i = 0 to n - 1 of `INV[LUT[i]] <- i` (R126). -/
def invertSteps (t start : Table) : Nat → Table
  | 0 => start
  | n + 1 =>
    if h : n < 256 then
      (invertSteps t start n).set (t[n]).toNat (BitVec.ofNat 8 n) (by have := (t[n]).isLt; omega)
    else invertSteps t start n

/-- The derivation of the inverse table (R126), over the table that INV holds before it. -/
@[irreducible] def invertTable (t start : Table) : Table := invertSteps t start 256

/-- The table of ZERO (R222). -/
@[irreducible] def zeroTable : Table := Vector.replicate 256 0

end Sys2Proof.Machine
end

