-- ==== Sys2Proof/Machine/Lifecycle.lean ====
section
/-! DEFINITION. Key lifecycle and control (44_lifecycle_control.md): ZERO, ABORT, CLR. -/

namespace Sys2Proof.Machine

/-- ZERO's SEQ step (R222). -/
def zeroWork (s : State) : Result State := .next (complete .zero { s with lut := zeroTable, inv := zeroTable })

/-- ZERO (R222). -/
def execZero (s : State) : Result State := command .zero zeroWork s

/-- ABORT (R224, R226); with the CLR bit `c` set it acts as CLR while BUSY = 0 (R96). -/
def execAbort (c : Bool) (s : State) : Result State :=
  if s.busy = true then
    if s.running = some .zero then .next s else .next (abortRunning s)
  else if c = true then .next (clearStatus s)
  else .next s

/-- CLR (R225); nothing while BUSY = 1 (R226). -/
def execClr (s : State) : Result State := if s.busy = true then .next s else .next (clearStatus s)

end Sys2Proof.Machine
end

