-- ==== Sys2Proof/Machine/Rounds.lean ====
section
/-! DEFINITION. The round engine's functions on rows (R154 to R160) and the block functions (R180, R181). -/

namespace Sys2Proof.Machine

/-- LTR on one row (R154). -/
def ltrRow (t : Table) (x : Row) : Row :=
  let h := hiByte x
  let l := loByte x
  let l0 := l >>> 6
  let l2 := (l >>> 4) &&& 3
  let l4 := (l >>> 2) &&& 3
  let l6 := l &&& 3
  let t1 := look t h
  let t3 := look t (ltrIndex t1 l0)
  let t5 := look t (ltrIndex t3 l2)
  let t7 := look t (ltrIndex t5 l4)
  let t9 := look t (ltrIndex t7 l6)
  let newH := (t1 &&& 0xC0) ||| ((t3 &&& 0xC0) >>> 2) ||| ((t5 &&& 0xC0) >>> 4) ||| ((t7 &&& 0xC0) >>> 6)
  rowOf newH t9

/-- RTL on one row (R156). -/
def rtlRow (t : Table) (x : Row) : Row :=
  let h := hiByte x
  let l := loByte x
  let h6 := h <<< 6
  let h4 := (h <<< 4) &&& 0xC0
  let h2 := (h <<< 2) &&& 0xC0
  let h0 := h &&& 0xC0
  let t1 := look t l
  let t3 := look t (rtlIndex h6 t1)
  let t5 := look t (rtlIndex h4 t3)
  let t7 := look t (rtlIndex h2 t5)
  let t9 := look t (rtlIndex h0 t7)
  let newL := ((t7 &&& 3) <<< 6) ||| ((t5 &&& 3) <<< 4) ||| ((t3 &&& 3) <<< 2) ||| (t1 &&& 3)
  rowOf t9 newL

/-- LTR on the eight rows (R150, R154). -/
def ltrRows (t : Table) (rows : Rows) : Rows := Vector.ofFn fun i => ltrRow t rows[i]

/-- RTL on the eight rows (R150, R156). -/
def rtlRows (t : Table) (rows : Rows) : Rows := Vector.ofFn fun i => rtlRow t rows[i]

/-- CS on the eight rows (R158): gather, substitute, scatter each of the 16 columns. -/
def csRows (t : Table) (rows : Rows) : Rows :=
  scatterColumns (Vector.ofFn fun c => look t (gatherColumn rows c))

/-- `rotl16(v, n)` (R159). -/
def rotl16 (v : Row) (n : Nat) : Row := if n = 0 then v else (v <<< n) ||| (v >>> (16 - n))

/-- ARC on the eight rows with constant index `q` (R160). -/
def arcRows (q : Nat) (rows : Rows) : Rows := Vector.ofFn fun i => rows[i] ^^^ rotl16 Config.rc[i] (2 * q)

/-- One round of encryption at index `r` (R180). -/
def encRound (t : Table) (r : Nat) (rows : Rows) : Rows := rtlRows t (csRows t (arcRows r (ltrRows t rows)))

/-- One round of decryption at index `r` (R181, R184). -/
def decRound (t : Table) (r : Nat) (rows : Rows) : Rows := rtlRows t (arcRows (7 - r) (csRows t (ltrRows t rows)))

/-- The first `n` rounds, in ascending order from round 0. -/
def rounds (round : Nat → Rows → Rows) : Nat → Rows → Rows
  | 0, rows => rows
  | n + 1, rows => round n (rounds round n rows)

/-- `EncBlock(T, b)` (R180). -/
def encBlock (t : Table) (b : Block) : Block := unpackRows (rounds (encRound t) Config.nRounds (packRows b))

/-- `DecBlock(T, b)` (R181). -/
def decBlock (t : Table) (b : Block) : Block := unpackRows (rounds (decRound t) Config.nRounds (packRows b))

/-- The block function of a direction. -/
def blockFn (d : Dir) (t : Table) (b : Block) : Block :=
  match d with
  | .enc => encBlock t b
  | .dec => decBlock t b

end Sys2Proof.Machine
end

