-- ==== Sys2Proof/Machine/MicroOps.lean ====
section
/-! DEFINITION. The micro-operations as lane steps (R186): PACK, LTR, ARC, CS, RTL, UNPACK on the lane whose turn it
is. A lane that is not in the phase takes no step of it (R185, log 8). -/

namespace Sys2Proof.Machine

/-- PACK (R151, R186). -/
def execPack (s : State) : Result State :=
  match s.selLane with
  | some (.pack r) =>
    if s.holds (blockAddr s.src r.blk) 16 then
      .next ((afterEngineRead 16 s).setSelLane
        (.run .ltr r (packRows (engineBytes s (blockAddr s.src r.blk) 16))))
    else .fault .engineAddress
  | _ => .next s

/-- The phase after LTR (R186). -/
def afterLtr : Dir → Stage
  | .enc => .arc
  | .dec => .cs

/-- LTR (R154, R186). -/
def execLtr (s : State) : Result State :=
  match s.selLane with
  | some (.run .ltr r rows) => .next (s.setSelLane (.run (afterLtr r.dir) r (ltrRows (s.tableOf r.dir) rows)))
  | _ => .next s

/-- The phase after ARC (R186). -/
def afterArc : Dir → Stage
  | .enc => .cs
  | .dec => .rtl

/-- ARC (R160, R186). -/
def execArc (s : State) : Result State :=
  match s.selLane with
  | some (.run .arc r rows) => .next (s.setSelLane (.run (afterArc r.dir) r (arcRows (arcIndex r) rows)))
  | _ => .next s

/-- The phase after CS (R186). -/
def afterCs : Dir → Stage
  | .enc => .rtl
  | .dec => .arc

/-- CS (R158, R186). -/
def execCs (s : State) : Result State :=
  match s.selLane with
  | some (.run .cs r rows) => .next (s.setSelLane (.run (afterCs r.dir) r (csRows (s.tableOf r.dir) rows)))
  | _ => .next s

/-- The lane after RTL (R186): the next round, or UNPACK after round 7. -/
def afterRtl (r : LaneRegs) (rows : Rows) : Lane :=
  if h : r.rnd.val < 7 then .run .ltr { r with rnd := ⟨r.rnd.val + 1, by omega⟩ } rows else .run .unpack r rows

/-- RTL (R156, R186). -/
def execRtl (s : State) : Result State :=
  match s.selLane with
  | some (.run .rtl r rows) => .next (s.setSelLane (afterRtl r (rtlRows (s.tableOf r.dir) rows)))
  | _ => .next s

/-- UNPACK (R152, R186): the lane is idle afterwards and its registers hold no value. -/
def execUnpack (s : State) : Result State :=
  match s.selLane with
  | some (.run .unpack r rows) =>
    if s.holds (blockAddr s.dst r.blk) 16 then
      .next ((engineWrite (blockAddr s.dst r.blk) (unpackRows rows).toList s).setSelLane .idle)
    else .fault .engineAddress
  | _ => .next s

end Sys2Proof.Machine
end

