-- ==== Sys2Proof/Machine/TableCommands.lean ====
section
/-! DEFINITION. The table commands (40_lut_tables.md): GENLUT, DERINV, LDLUT, LDINV, RDLUT, RDINV. -/

namespace Sys2Proof.Machine

/-- GENLUT's SEQ step (R121): not enabled until ENT has answered (R263). -/
def genlutWork (s : State) : Result State :=
  match s.entAns with
  | none => .next s
  | some .unavailable => .next (runError .entropyUnavailable (lutAny s))
  | some (.available j) => .next (complete .genlut { s with lut := fisherYates j.seq })

/-- GENLUT (R121). -/
def execGenlut (s : State) : Result State := command .genlut genlutWork s

/-- DERINV's SEQ step (R126). -/
def derinvWork (s : State) : Result State :=
  if IsPermutation s.lut then .next (complete .derinv { s with inv := invertTable s.lut s.inv })
  else .next (runError .invalidLut (invAny s))

/-- DERINV (R126). -/
def execDerinv (s : State) : Result State := command .derinv derinvWork s

/-- LDLUT's SEQ step (R128). -/
def ldlutWork (s : State) : Result State :=
  if s.holds s.src.toNat 256 then .next (complete .ldlut { afterEngineRead 256 s with lut := loadTable s })
  else .fault .engineAddress

/-- LDLUT (R128). -/
def execLdlut (s : State) : Result State := command .ldlut ldlutWork s

/-- LDINV's SEQ step (R129). -/
def ldinvWork (s : State) : Result State :=
  if s.holds s.src.toNat 256 then .next (complete .ldinv { afterEngineRead 256 s with inv := loadTable s })
  else .fault .engineAddress

/-- LDINV (R129). -/
def execLdinv (s : State) : Result State := command .ldinv ldinvWork s

/-- RDLUT's SEQ step (R130). -/
def rdlutWork (s : State) : Result State :=
  if s.holds s.dst.toNat 256 then .next (complete .rdlut (storeTable s.lut s)) else .fault .engineAddress

/-- RDLUT (R130). -/
def execRdlut (s : State) : Result State := command .rdlut rdlutWork s

/-- RDINV's SEQ step (R131). -/
def rdinvWork (s : State) : Result State :=
  if s.holds s.dst.toNat 256 then .next (complete .rdinv (storeTable s.inv s)) else .fault .engineAddress

/-- RDINV (R131). -/
def execRdinv (s : State) : Result State := command .rdinv rdinvWork s

end Sys2Proof.Machine
end

