-- ==== Sys2Proof/Machine/Dispatch.lean ====
section
/-! DEFINITION. The dispatch of an instruction to its meaning. -/

namespace Sys2Proof.Machine

def exec (i : Instr) (s : State) : Host.Outcome State Fault Refusal :=
  match i with
  | .genlut => Sys2Proof.Machine.execGenlut s
  | .derinv => Sys2Proof.Machine.execDerinv s
  | .encb => Sys2Proof.Machine.execEncb s
  | .decb => Sys2Proof.Machine.execDecb s
  | .enc => Sys2Proof.Machine.execEnc s
  | .dec => Sys2Proof.Machine.execDec s
  | .zero => Sys2Proof.Machine.execZero s
  | .ldlut => Sys2Proof.Machine.execLdlut s
  | .ldinv => Sys2Proof.Machine.execLdinv s
  | .rdlut => Sys2Proof.Machine.execRdlut s
  | .rdinv => Sys2Proof.Machine.execRdinv s
  | .abort c => Sys2Proof.Machine.execAbort c s
  | .clr => Sys2Proof.Machine.execClr s
  | .pack => Sys2Proof.Machine.execPack s
  | .ltr => Sys2Proof.Machine.execLtr s
  | .arc => Sys2Proof.Machine.execArc s
  | .cs => Sys2Proof.Machine.execCs s
  | .rtl => Sys2Proof.Machine.execRtl s
  | .unpack => Sys2Proof.Machine.execUnpack s

end Sys2Proof.Machine
end

