-- ==== Sys2Proof/Machine/Fetch.lean ====
section
/-! DEFINITION. Who moves, and what: the turn of the schedule, the HOST's transactions (R90, R31 to R36), SEQ reading
the running command from CMD, a lane reading its phase. -/

namespace Sys2Proof.Machine

/-- The move a turn makes: an instruction to run on a state, or an outcome that needs no instruction. -/
inductive Move where
  | run (i : Instr) (s : State)
  | over (o : Result State)

/-! ### The schedule (R40, log 1) -/

/-- The first idle lane. -/
def State.firstIdle (s : State) : Nat := s.lanes.findIdx fun l => !l.active

/-- The turn taken when the schedule holds none: while BUSY the first active lane, else ENT if GENLUT waits for it,
else SEQ with the first pending block and the first idle lane; while idle the HOST. One legal order (log 1). -/
def State.defaultTurn (s : State) : Turn :=
  if s.busy = true then
    if s.allIdle = false then .lane (s.lanes.findIdx fun l => l.active)
    else if s.running = some .genlut ∧ s.entAns = none then .ent
    else .seq (s.pend.headD 0) s.firstIdle
  else .host

/-- Whose turn it is. -/
def State.turn (s : State) : Turn :=
  match s.sched with
  | t :: _ => t
  | [] => s.defaultTurn

/-- The schedule without the turn being taken. -/
def State.popTurn (s : State) : State := { s with sched := s.sched.tail }

/-! ### The register file as the HOST sees it (R30 to R36) -/

/-- `R(n)`: the word register n reads as; CTRL and unmapped numbers read 0 (R34, R35). -/
def regRead (n : Nat) (s : State) : Word :=
  match n with
  | 0 => s.cmd
  | 1 => statusWord s
  | 2 => s.src
  | 3 => s.dst
  | 4 => s.len
  | _ => 0

/-- A write to SRC, DST or LEN (R33); any other number here is dropped (R32, R35). -/
def operandWrite (n : Nat) (w : Word) (s : State) : State :=
  match n with
  | 2 => { s with src := w }
  | 3 => { s with dst := w }
  | 4 => { s with len := w }
  | _ => s

/-- `W(n, w)`: CMD issues a command (R31, R98), CTRL makes a request (R34), the operand registers store (R33); while
BUSY = 1 only CTRL acts (R36). -/
def hostWrite (n : Nat) (w : Word) (s : State) : Move :=
  if n = 0 then
    if s.busy = true then .over (.next s)
    else
      match decode (.cmdw w) with
      | .ok i => .run i s
      | .error _ => .over (.next (reject .illegalCommand s))
  else if n = 5 then
    match decode (.ctrlw w) with
    | .ok i => .run i s
    | .error _ => .over (.next s)
  else if s.busy = true then .over (.next s)
  else .over (.next (operandWrite n w s))

/-- What a read transaction returns. -/
def reply (r : Reply) (s : State) : State := { s with replies := r :: s.replies }

/-- `WM(a, b)`; a byte of the running command's buffers becomes contested instead (R75). -/
def hostMemWrite (a : Nat) (b : Byte) (s : State) : Result State :=
  if s.memBytes ≤ a then .fault .hostAddress
  else if s.inSource a || s.inDest a then .next (contest a s)
  else .next { s with mem := s.mem.write a b }

/-- `RM(a)`; a byte of the running command's destination becomes contested and reads as `any`, and so does a contested
byte of its source (R75). -/
def hostMemRead (a : Nat) (s : State) : Result State :=
  if s.memBytes ≤ a then .fault .hostAddress
  else if s.inDest a || decide (a ∈ s.contested) then
    .next { reply (.byte (Config.anyByte s.free)) (contest a s) with free := s.free + 1 }
  else .next (reply (.byte (s.mem.read a)) s)

/-- The HOST's turn: its next transaction; `wait` repeats R(1) until BUSY reads 0 (R101). -/
def hostMove (s : State) : Move :=
  match s.script with
  | [] => .over (.next s)
  | .wr n w :: rest => hostWrite n w { s with script := rest }
  | .rd n :: rest => .over (.next (reply (.word (regRead n s)) { s with script := rest }))
  | .wm a b :: rest => .over (hostMemWrite a b { s with script := rest })
  | .rm a :: rest => .over (hostMemRead a { s with script := rest })
  | .wait :: rest =>
    .over (.next (reply (.word (statusWord s)) { s with script := if s.busy = true then s.script else rest }))

/-! ### SEQ and the lanes -/

/-- SEQ's turn: the running command's next step; none while BUSY = 0 (R103). -/
def seqMove (s : State) : Move :=
  if s.busy = true then
    match decode (.cmdw s.cmd) with
    | .ok i => .run i s
    | .error _ => .over (.next s)
  else .over (.next s)

/-- A lane's turn: the micro-operation its PH names; none while it is idle (R185). -/
def laneMove (s : State) : Move :=
  match s.selLane with
  | some l =>
    match decode (.ph l.phase) with
    | .ok i => .run i s
    | .error _ => .over (.next s)
  | none => .over (.next s)

/-- The move of the turn. -/
def nextMove (s : State) : Move :=
  match s.turn with
  | .host => hostMove s.popTurn
  | .seq k l => seqMove { s.popTurn with sel := ⟨k, l⟩ }
  | .lane l => laneMove { s.popTurn with sel := ⟨s.sel.blk, l⟩ }
  | .ent => .over (.next (entStep s.popTurn))
  | .reset => .over (.next (resetEvent s.popTurn))

/-! ### Placing an instruction where the next step finds it (log 13) -/

/-- A lane put into stage `st`: it keeps the registers that hold a value; the others get block 0, round 0, encryption and
rows of 0. -/
def laneAt (st : Stage) (l : Lane) : Lane :=
  .run st (l.regs?.getD ⟨.enc, 0, 0⟩) (l.rows?.getD (Vector.replicate 8 0))

/-- A lane put at the phase code `p`; codes 0 and 7 are no micro-operation and leave it idle. -/
def laneAtPhase (p : BitVec 3) (l : Lane) : Lane :=
  match p.toNat with
  | 1 => .pack (l.regs?.getD ⟨.enc, 0, 0⟩)
  | 2 => laneAt .ltr l
  | 3 => laneAt .arc l
  | 4 => laneAt .cs l
  | 5 => laneAt .rtl l
  | 6 => laneAt .unpack l
  | _ => .idle

/-- `s` with a code where the very next step fetches: a command word as the HOST's next transaction W(0, w) while
BUSY = 0, a control word as W(5, w), a phase code in lane 0. -/
def placeCode (c : Code) (s : State) : State :=
  match c with
  | .cmdw w => { s with busy := false, script := .wr 0 w :: s.script, sched := .host :: s.sched }
  | .ctrlw w => { s with script := .wr 5 w :: s.script, sched := .host :: s.sched }
  | .ph p => { s with lanes := s.lanes.modifyHead (laneAtPhase p), sched := .lane 0 :: s.sched }

end Sys2Proof.Machine
end

