-- ==== Sys2Proof/Machine/Step.lean ====
section
/-! DEFINITION. One step of the HCE: one indivisible step of one agent (R67, R90, R187, R253). -/

namespace Sys2Proof.Machine

/-- One step: the move of the agent whose turn it is. -/
def step (s : State) : Host.Outcome State Fault Refusal :=
  match nextMove s with
  | .run i t => exec i t
  | .over o => o

/-- `s` with the instruction whose table row has `nbits` bits and holds `w` stored where the next step fetches (log 12,
log 13). -/
def State.withFetchWord (s : State) (nbits w : Nat) : State :=
  match tableCode nbits w with
  | some c => placeCode c s
  | none => s

end Sys2Proof.Machine
end

