-- ==== Sys2Proof/Machine/Script.lean ====
section
/-! DEFINITION. Host scripts: statements (R101), pseudo-instructions and the source's operations (R102), as the host
transactions they stand for. -/

namespace Sys2Proof.Machine

/-- The transactions `WM(a, b0)`, `WM(a + 1, b1)`, … of `wm` (R101). -/
def wmTxns (a : Nat) : List Byte → List HostTxn
  | [] => []
  | b :: bs => .wm a b :: wmTxns (a + 1) bs

/-- The transactions a statement stands for (R101). -/
def stmtTxns : Stmt → List HostTxn
  | .wr r v => [.wr r.number v]
  | .rd r => [.rd r.number]
  | .wm a bytes => wmTxns a bytes
  | .rm a n => (List.range n).map fun k => .rm (a + k)
  | .wait => [.wait]

/-- The command write and the `wait` of a pseudo-instruction (R102). -/
def issueAndWait (i : Instr) : List Stmt := [.wr .cmd (cmdWord i), .wait]

/-- The expansions of R102. -/
def pseudoStmts : Pseudo → List Stmt
  | .genlut => issueAndWait .genlut
  | .derinv => issueAndWait .derinv
  | .encb s d => [.wr .src s, .wr .dst d] ++ issueAndWait .encb
  | .decb s d => [.wr .src s, .wr .dst d] ++ issueAndWait .decb
  | .enc s d n => [.wr .src s, .wr .dst d, .wr .len n] ++ issueAndWait .enc
  | .dec s d n => [.wr .src s, .wr .dst d, .wr .len n] ++ issueAndWait .dec
  | .zero => issueAndWait .zero
  | .ldlut s => [.wr .src s] ++ issueAndWait .ldlut
  | .ldinv s => [.wr .src s] ++ issueAndWait .ldinv
  | .rdlut d => [.wr .dst d] ++ issueAndWait .rdlut
  | .rdinv d => [.wr .dst d] ++ issueAndWait .rdinv
  | .abort => [.wr .ctrl 1]
  | .clr => [.wr .ctrl 2]

/-- The HCE sequences of the source's operations (R102). -/
def sourceOpPseudos : SourceOp → List Pseudo
  | .generateLut out => [.genlut, .rdlut out]
  | .deriveInverseLut lut out => [.ldlut lut, .derinv, .rdinv out]
  | .encryptBlock lut plain out => [.ldlut lut, .encb plain out]
  | .decryptBlock invLut cipher out => [.ldinv invLut, .decb cipher out]
  | .encrypt lut inp out n => [.ldlut lut, .enc inp out n]
  | .decrypt invLut inp out n => [.ldinv invLut, .dec inp out n]

/-- The transactions of a whole script. -/
def scriptTxns (l : List Stmt) : List HostTxn := l.flatMap stmtTxns

end Sys2Proof.Machine
end

