-- ==== Sys2Proof/Machine/NetEffect.lean ====
section
/-! DEFINITION. The net effect of the block and bulk commands on MEM (R182, R183, R200, R201), against which the small
steps of lanes and dispatcher are held. No step uses it. -/

namespace Sys2Proof.Machine

/-- Blocks 0 to n - 1 of the buffer at `src`, as the memory `m0` holds them, transformed by `f` into the blocks at
`dst`. -/
def netEffect (f : Block → Block) (m0 : Memory) (src dst : Word) : Nat → Memory
  | 0 => m0
  | n + 1 =>
    (netEffect f m0 src dst n).writeBytes (blockAddr dst n) (f (m0.readBytes (blockAddr src n) 16)).toList

end Sys2Proof.Machine
end

