-- ==== Sys2Proof/Safety.lean ====
section
/-! DEFINITION. What holds in every state that a run reaches: the invariants of status, key flags, lanes, PEND, the
running command's buffers and MEM. Each clause is decidable.
After them, the terms in which claims speak of tables, columns and runs. -/

namespace Sys2Proof.Machine

/-- The parameters lie in the ranges of R9. -/
abbrev ParamsOk (s : State) : Prop := 0 < s.lanes.length ∧ 16 ≤ s.memBytes ∧ s.memBytes ≤ 2 ^ 32

/-- MEM is in canonical form and lists only addresses that exist (R61). -/
abbrev MemOk (s : State) : Prop := s.mem.wf = true ∧ s.mem.below s.memBytes = true

/-- At most one of BUSY, DONE, ERR is 1, and ECODE is 0 exactly when ERR = 0 (R36). -/
abbrev StatusOk (s : State) : Prop :=
  ¬ (s.busy = true ∧ s.done = true) ∧ ¬ (s.busy = true ∧ s.err = true) ∧ ¬ (s.done = true ∧ s.err = true) ∧
    (s.ecode = .none ↔ s.err = false)

/-- ZD = 1 implies LUT_V = 0 and INV_V = 0 (R28). -/
abbrev KeyOk (s : State) : Prop := s.zd = true → s.lutV = false ∧ s.invV = false

/-- CMD holds 0 or the word of an accepted command (R31). -/
abbrev CmdOk (s : State) : Prop := s.cmd = 0 ∨ s.running.isSome = true

/-- The quiescent state (R103): every lane idle, PEND empty, no request to ENT outstanding, no buffer in use. -/
abbrev Quiescent (s : State) : Prop := s.allIdle = true ∧ s.pend = [] ∧ s.entAns = none ∧ s.contested = []

/-- The block indices that lanes are working on. -/
def activeBlocks (s : State) : List Nat := s.lanes.filterMap fun l => l.regs?.map (·.blk)

/-- What is true while command `i` with operand use `p` runs (R28, R37, R69, R70, R75, R202, R245). -/
abbrev RunningOk (i : Instr) (p : Profile) (s : State) : Prop :=
  issueError p s = none ∧
  accFlags i s.keyFlags = s.keyFlags ∧
  (activeBlocks s ++ s.pend).Nodup ∧
  (∀ k ∈ activeBlocks s ++ s.pend, k < blockCount i s.len) ∧
  (∀ l ∈ s.lanes, ∀ r ∈ l.regs?, dirOf? i = some r.dir) ∧
  (s.entAns ≠ none → i = .genlut) ∧
  (∀ a ∈ s.contested, s.inSource a = true ∨ s.inDest a = true) ∧
  s.contested.Nodup

/-- BUSY = 1 exactly while an accepted command runs (R103). -/
abbrev BusyOk (s : State) : Prop :=
  (s.busy = false → Quiescent s) ∧
  (s.busy = true → s.running.isSome = true ∧ ∀ i ∈ s.running, ∀ p ∈ profileOf i, RunningOk i p s)

/-- The invariant of the HCE. -/
structure Inv (s : State) : Prop where
  params : ParamsOk s
  memory : MemOk s
  status : StatusOk s
  key : KeyOk s
  cmd : CmdOk s
  busy : BusyOk s

/-! ### Terms of the claims -/

/-- Entry `n` of a table as a number; 0 past its end. -/
def entryNat (t : Table) (n : Nat) : Nat := (t.toList.getD n 0).toNat

/-- Column `c` of the bit matrix as a number: row 0 is its most significant bit (R158). -/
def columnNat (rows : Rows) (c : Nat) : Nat :=
  ((List.finRange 8).map fun i => if rows[i].getLsbD (15 - c) then 2 ^ (7 - i.val) else 0).sum

/-- `t'` undoes `t` (R27). -/
abbrev InverseOf (t' t : Table) : Prop := ∀ v : Byte, look t' (look t v) = v

/-- The schedule holds no reset event. -/
abbrev NoReset (s : State) : Prop := ∀ t ∈ s.sched, t ≠ .reset

/-- A cipher command `i` that has just been accepted and whose buffers nobody else touches. -/
structure JustAccepted (i : Instr) (d : Dir) (s : State) : Prop where
  inv : Inv s
  busy : s.busy = true
  running : s.running = some i
  dir : dirOf? i = some d
  idle : s.allIdle = true
  pend : s.pend = List.range (blockCount i s.len)
  calm : s.contested = []

/-- A HOST transaction that does not interfere with a command working on the `n` bytes at `src` and at `dst` (R75, R204)
and starts no other: any read of a register, a poll, a write to a register other than CMD and CTRL, a write of a byte
outside both buffers, a read of a byte outside the destination. -/
def quietTxn (src dst : Word) (n : Nat) : HostTxn → Bool
  | .wr r _ => decide (r ≠ 0 ∧ r ≠ 5)
  | .rd _ => true
  | .wm a _ => decide (¬ inRegion a src.toNat n ∧ ¬ inRegion a dst.toNat n)
  | .rm a => decide (¬ inRegion a dst.toNat n)
  | .wait => true

/-- The HOST's transaction `x` is the next move of `s`, with `rest` to follow. -/
abbrev HostTurn (s : State) (x : HostTxn) (rest : List HostTxn) : Prop := s.turn = .host ∧ s.script = x :: rest

end Sys2Proof.Machine
end

