-- ==== Sys2Proof/Certificates/Slice0/Obligations.lean ====
section
/-! DEFINITION. The statements for the provers: what the rules of spec/ say of the HCE. -/

open Sys2Proof Sys2Proof.Machine

/-! ### Encodings -/

/-- The encoder and the decoder are inverse: no bit of an encoding is dropped but the ignored bits of a control word
(R91, R92, R96, R97). -/
def Obligations.DecodeAndEncodeAgree : Prop :=
  (∀ i : Instr, i.wf = true → decode (encode i) = .ok i) ∧
  (∀ (c : Code) (i : Instr), decode c = .ok i → encode i = ignoredCleared c)

/-- A few words written out from the tables of R92, R96 and R97. -/
def Obligations.SpecWordsDecodeRight : Prop :=
  decode (.cmdw 0x00000001) = .ok .genlut ∧ decode (.cmdw 0x00000003) = .ok .encb ∧
  decode (.cmdw 0x00000006) = .ok .dec ∧ decode (.cmdw 0x00000007) = .ok .zero ∧
  decode (.cmdw 0x0000000B) = .ok .rdinv ∧ decode (.cmdw 0x00000013) = .error .reservedBits ∧
  decode (.ctrlw 0xFFFFFFFD) = .ok (.abort false) ∧ decode (.ctrlw 0x80000002) = .ok .clr ∧
  decode (.ph 0b100) = .ok .cs ∧ decode (.ph 0b101) = .ok .rtl

/-- R95: a write to CMD while BUSY = 0 of a word with a reserved opcode or a nonzero upper bit is rejected with
IllegalCommand and changes nothing else. -/
def Obligations.ReservedCommandWordsAreIllegal : Prop :=
  ∀ (s : State) (w : Word) (rest : List HostTxn), HostTurn s (.wr 0 w) rest → s.busy = false →
    (w.toNat / 16 ≠ 0 ∨ w.toNat % 16 = 0 ∨ 12 ≤ w.toNat % 16) →
    step s = .next { s with
      sched := s.sched.tail, script := rest, done := false, err := true, ecode := .illegalCommand }

/-! ### Steps -/

/-- A step runs the decoded instruction: a command word written to CMD while idle, a control word written to CTRL, the
running command at SEQ's turn, a lane's phase at the lane's turn. Around `exec` it only takes the turn off the schedule
and the transaction off the script, or notes whose turn it is. -/
def Obligations.StepRunsTheDecodedInstruction : Prop :=
  (∀ (s : State) (w : Word) (rest : List HostTxn) (i : Instr), HostTurn s (.wr 0 w) rest → s.busy = false →
    decode (.cmdw w) = .ok i → step s = exec i { s with sched := s.sched.tail, script := rest }) ∧
  (∀ (s : State) (w : Word) (rest : List HostTxn) (i : Instr), HostTurn s (.wr 5 w) rest →
    decode (.ctrlw w) = .ok i → step s = exec i { s with sched := s.sched.tail, script := rest }) ∧
  (∀ (s : State) (k l : Nat) (i : Instr), s.turn = .seq k l → s.busy = true → decode (.cmdw s.cmd) = .ok i →
    step s = exec i { s with sched := s.sched.tail, sel := ⟨k, l⟩ }) ∧
  (∀ (s : State) (l : Nat) (lane : Lane) (i : Instr), s.turn = .lane l → s.lanes[l]? = some lane →
    decode (.ph lane.phase) = .ok i → step s = exec i { s with sched := s.sched.tail, sel := ⟨s.sel.blk, l⟩ })

/-- R103: in a quiescent state no step of SEQ, of a lane or of ENT does anything. -/
def Obligations.NothingRunsWhileIdle : Prop :=
  ∀ s : State, Inv s → s.busy = false →
    (∀ k l, s.turn = .seq k l → step s = .next { s with sched := s.sched.tail, sel := ⟨k, l⟩ }) ∧
    (∀ l, s.turn = .lane l → step s = .next { s with sched := s.sched.tail, sel := ⟨s.sel.blk, l⟩ }) ∧
    (s.turn = .ent → step s = .next { s with sched := s.sched.tail })

/-! ### Reset and the invariant -/

/-- R41, as far as the spec gives values: what the state after reset holds. -/
def Obligations.ResetStateHoldsSpecValues : Prop :=
  State.reset.cmd = 0 ∧ State.reset.busy = false ∧ State.reset.done = false ∧ State.reset.err = false ∧
  State.reset.ecode = .none ∧ State.reset.lutV = false ∧ State.reset.invV = false ∧ State.reset.zd = false ∧
  State.reset.src = 0 ∧ State.reset.dst = 0 ∧ State.reset.len = 0 ∧ (∀ l ∈ State.reset.lanes, l = .idle) ∧
  State.reset.pend = [] ∧ statusWord State.reset = 0

/-- R41, R280, R281: a reset event gives every register, flag and lane the value of R41, whatever was running; no byte
of MEM changes but those that the HOST had contested; the parameters stay. -/
def Obligations.ResetEventGivesResetValues : Prop :=
  ∀ s : State, s.turn = .reset → s.mem.wf = true →
    ∃ (t : State) (lut' inv' : Table) (mem' : Memory) (free' : Nat), step s = .next t ∧
      t = { s with
        cmd := 0, busy := false, done := false, err := false, ecode := .none, lutV := false, invV := false,
        zd := false, src := 0, dst := 0, len := 0, lut := lut', inv := inv',
        lanes := List.replicate s.lanes.length .idle, pend := [], mem := mem', sched := s.sched.tail, entAns := none,
        contested := [], free := free' } ∧
      (∀ a, a ∉ s.contested → mem'.read a = s.mem.read a) ∧ statusWord t = 0

/-- The state after reset satisfies the invariant. -/
def Obligations.ResetStateSatisfiesInvariant : Prop := Inv State.reset

/-- Every step of every agent keeps the invariant (R28, R36, R37, R69, R70, R103, R202, R245). -/
def Obligations.EveryStepKeepsInvariant : Prop :=
  ∀ s t : State, Inv s → step s = .next t → Inv t

/-- R62, R69: the engine never touches an address that does not exist; a step faults only where the HOST reads or writes
a MEM address at or above MEM_BYTES; nothing is ever refused. -/
def Obligations.OnlyHostAccessOutsideMemFaults : Prop :=
  (∀ (s : State) (f : Fault), Inv s → step s = .fault f →
    f = .hostAddress ∧ ∃ (a : Nat) (rest : List HostTxn), s.memBytes ≤ a ∧
      ((∃ b, HostTurn s (.wm a b) rest) ∨ HostTurn s (.rm a) rest)) ∧
  (∀ (i : Instr) (s : State) (r : Refusal), exec i s ≠ .refused r) ∧
  (∀ (s : State) (r : Refusal), step s ≠ .refused r)

/-! ### Registers and status -/

/-- R32: STATUS field by field; reading it has no side effect but the reply, and a write to it is dropped. -/
def Obligations.StatusReadsItsFields : Prop :=
  ∀ s : State,
    ((statusWord s).getLsbD 0 = s.busy ∧ (statusWord s).getLsbD 1 = s.done ∧ (statusWord s).getLsbD 2 = s.err ∧
      (statusWord s).getLsbD 3 = s.lutV ∧ (statusWord s).getLsbD 4 = s.invV ∧
      (statusWord s).extractLsb' 5 2 = s.keyFlags.keyState.code ∧ (statusWord s).getLsbD 7 = false ∧
      (statusWord s).extractLsb' 8 4 = s.ecode.code ∧ (statusWord s).extractLsb' 12 20 = 0) ∧
    (∀ rest, HostTurn s (.rd 1) rest →
      step s = .next { s with
        sched := s.sched.tail, script := rest, replies := .word (statusWord s) :: s.replies }) ∧
    (∀ w rest, HostTurn s (.wr 1 w) rest → step s = .next { s with sched := s.sched.tail, script := rest })

/-- R29: the key state and its codes. -/
def Obligations.KeyStateFollowsFlags : Prop :=
  ∀ f : KeyFlags,
    (f.keyState.code = 0 ↔ f.lutV = false ∧ f.invV = false ∧ f.zd = false) ∧
    (f.keyState.code = 1 ↔ f.lutV ≠ f.invV) ∧
    (f.keyState.code = 2 ↔ f.lutV = true ∧ f.invV = true) ∧
    (f.keyState.code = 3 ↔ f.lutV = false ∧ f.invV = false ∧ f.zd = true)

/-- R33: SRC, DST and LEN hold what the HOST last wrote while BUSY = 0, a write while BUSY = 1 is dropped, a read returns
the value and changes nothing but the reply, and no instruction changes them. -/
def Obligations.OperandRegistersHoldWhatTheHostWrote : Prop :=
  (∀ (s : State) (w : Word) (rest : List HostTxn), s.busy = false →
    (HostTurn s (.wr 2 w) rest → step s = .next { s with sched := s.sched.tail, script := rest, src := w }) ∧
    (HostTurn s (.wr 3 w) rest → step s = .next { s with sched := s.sched.tail, script := rest, dst := w }) ∧
    (HostTurn s (.wr 4 w) rest → step s = .next { s with sched := s.sched.tail, script := rest, len := w })) ∧
  (∀ (s : State) (n : Nat) (w : Word) (rest : List HostTxn), s.busy = true → 2 ≤ n → n ≤ 4 →
    HostTurn s (.wr n w) rest → step s = .next { s with sched := s.sched.tail, script := rest }) ∧
  (∀ (s : State) (n : Nat) (w : Word) (rest : List HostTxn), HostTurn s (.rd n) rest →
    (n = 2 ∧ w = s.src ∨ n = 3 ∧ w = s.dst ∨ n = 4 ∧ w = s.len) →
    step s = .next { s with sched := s.sched.tail, script := rest, replies := .word w :: s.replies }) ∧
  (∀ (i : Instr) (s t : State), exec i s = .next t → t.src = s.src ∧ t.dst = s.dst ∧ t.len = s.len)

/-- R31, R34, R35, R36: CMD reads as the word of the last accepted command, and a write to it while BUSY = 1 is dropped;
CTRL and the numbers from 6 up read 0, and a write to a number from 6 up is dropped. -/
def Obligations.OtherRegistersReadAndDropAsMapped : Prop :=
  ∀ (s : State) (n : Nat) (w : Word) (rest : List HostTxn),
    (HostTurn s (.rd 0) rest →
      step s = .next { s with sched := s.sched.tail, script := rest, replies := .word s.cmd :: s.replies }) ∧
    (HostTurn s (.wr 0 w) rest → s.busy = true → step s = .next { s with sched := s.sched.tail, script := rest }) ∧
    (HostTurn s (.rd n) rest → 5 ≤ n →
      step s = .next { s with sched := s.sched.tail, script := rest, replies := .word 0 :: s.replies }) ∧
    (HostTurn s (.wr n w) rest → 6 ≤ n → step s = .next { s with sched := s.sched.tail, script := rest })

/-! ### The HOST's bytes -/

/-- R62, R90: outside the running command's buffers the HOST writes and reads single bytes of MEM; an address at or above
MEM_BYTES faults, which is the model's choice (log 11). -/
def Obligations.HostReadsAndWritesMemoryBytes : Prop :=
  ∀ (s : State) (a : Nat) (b : Byte) (rest : List HostTxn), s.mem.wf = true →
    (HostTurn s (.wm a b) rest → a < s.memBytes → s.inSource a = false → s.inDest a = false →
      ∃ mem' : Memory, mem'.wf = true ∧ mem'.read a = b ∧ (∀ x, x ≠ a → mem'.read x = s.mem.read x) ∧
        step s = .next { s with sched := s.sched.tail, script := rest, mem := mem' }) ∧
    (HostTurn s (.rm a) rest → a < s.memBytes → s.inDest a = false → a ∉ s.contested →
      step s = .next { s with
        sched := s.sched.tail, script := rest, replies := .byte (s.mem.read a) :: s.replies }) ∧
    (s.memBytes ≤ a → HostTurn s (.wm a b) rest ∨ HostTurn s (.rm a) rest → step s = .fault .hostAddress)

/-- R75: a HOST write into a running command's source or destination, or a HOST read of its destination, changes no byte
of MEM at once but makes the byte contested; the read returns a free value. -/
def Obligations.HostAccessToBusyBuffersIsContested : Prop :=
  ∀ (s : State) (a : Nat) (rest : List HostTxn), a < s.memBytes →
    (∀ b, HostTurn s (.wm a b) rest → s.inSource a = true ∨ s.inDest a = true →
      ∃ c : List Nat, (∀ x, x ∈ c ↔ x = a ∨ x ∈ s.contested) ∧
        step s = .next { s with sched := s.sched.tail, script := rest, contested := c }) ∧
    (HostTurn s (.rm a) rest → s.inDest a = true ∨ a ∈ s.contested →
      ∃ c : List Nat, (∀ x, x ∈ c ↔ x = a ∨ x ∈ s.contested) ∧
        step s = .next { s with
          sched := s.sched.tail, script := rest, contested := c, free := s.free + 1,
          replies := .byte (Config.anyByte s.free) :: s.replies })

/-- R75: when a command ends, every contested byte of MEM holds a free value drawn then, and every other byte is
unchanged. -/
def Obligations.ContestedBytesEndFree : Prop :=
  ∀ s : State, s.mem.wf = true → s.contested.Nodup →
    (settle s).contested = [] ∧ (settle s).mem.wf = true ∧
    (∀ a, a ∉ s.contested → (settle s).mem.read a = s.mem.read a) ∧
    (∀ a ∈ s.contested, ∃ n, s.free ≤ n ∧ n < (settle s).free ∧ (settle s).mem.read a = Config.anyByte n)

/-! ### Issue of the block and bulk commands -/

/-- R182, R183, R252, R254: the issue of ENCB and DECB while idle: NotKeyed, BadAddress, BadAlias in this order, each
changing only DONE, ERR and ECODE; else acceptance with block 0 pending and no key flag changed. -/
def Obligations.BlockCommandsIssueInCheckOrder : Prop :=
  ∀ (s : State) (i : Instr) (key : Bool) (op : Word), s.busy = false →
    (i = .encb ∧ key = s.lutV ∧ op = 3 ∨ i = .decb ∧ key = s.invV ∧ op = 4) →
    exec i s = .next (
      if key = false then { s with done := false, err := true, ecode := .notKeyed }
      else if s.memBytes < s.src.toNat + 16 ∨ s.memBytes < s.dst.toNat + 16 then
        { s with done := false, err := true, ecode := .badAddress }
      else if s.src ≠ s.dst ∧ s.src.toNat < s.dst.toNat + 16 ∧ s.dst.toNat < s.src.toNat + 16 then
        { s with done := false, err := true, ecode := .badAlias }
      else
        { s with
          cmd := op, busy := true, done := false, err := false, ecode := .none, pend := [0], entAns := none })

/-- R200, R201, R205, R209, R252, R254: the issue of ENC and DEC while idle: InvalidLength, NotKeyed and, only when
LEN > 0, BadAddress and BadAlias in this order; else acceptance with blocks 0 to LEN / 16 - 1 pending. -/
def Obligations.BulkCommandsIssueInCheckOrder : Prop :=
  ∀ (s : State) (i : Instr) (key : Bool) (op : Word), s.busy = false →
    (i = .enc ∧ key = s.lutV ∧ op = 5 ∨ i = .dec ∧ key = s.invV ∧ op = 6) →
    exec i s = .next (
      if s.len.toNat % 16 ≠ 0 then { s with done := false, err := true, ecode := .invalidLength }
      else if key = false then { s with done := false, err := true, ecode := .notKeyed }
      else if 0 < s.len.toNat ∧
          (s.memBytes < s.src.toNat + s.len.toNat ∨ s.memBytes < s.dst.toNat + s.len.toNat) then
        { s with done := false, err := true, ecode := .badAddress }
      else if 0 < s.len.toNat ∧ s.src ≠ s.dst ∧ s.src.toNat < s.dst.toNat + s.len.toNat ∧
          s.dst.toNat < s.src.toNat + s.len.toNat then
        { s with done := false, err := true, ecode := .badAlias }
      else
        { s with
          cmd := op, busy := true, done := false, err := false, ecode := .none,
          pend := List.range (s.len.toNat / 16), entAns := none })

/-- R202: the dispatch step of ENCB, DECB, ENC and DEC hands the chosen pending block to the chosen idle lane, which
stands at PACK of round 0 in the command's direction. -/
def Obligations.DispatchActivatesAnIdleLane : Prop :=
  ∀ (s : State) (i : Instr) (d : Dir), s.busy = true → s.running = some i →
    (i = .encb ∧ d = .enc ∨ i = .decb ∧ d = .dec ∨ i = .enc ∧ d = .enc ∨ i = .dec ∧ d = .dec) →
    s.sel.blk ∈ s.pend → s.pend.Nodup → s.lanes[s.sel.lane]? = some .idle →
    ∃ pend' : List Nat, (∀ k, k ∈ pend' ↔ k ∈ s.pend ∧ k ≠ s.sel.blk) ∧
      exec i s = .next { s with
        pend := pend', lanes := s.lanes.set s.sel.lane (.pack ⟨d, s.sel.blk, 0⟩) }

/-- R203: the completion step of ENCB, DECB, ENC and DEC, when no block is pending and no lane is active. -/
def Obligations.CipherCommandsComplete : Prop :=
  ∀ (s : State) (i : Instr), s.busy = true → s.running = some i →
    (i = .encb ∨ i = .decb ∨ i = .enc ∨ i = .dec) → s.pend = [] → (∀ l ∈ s.lanes, l = .idle) →
    exec i s = .next (settle { s with busy := false, done := true, entAns := none })

/-! ### The table commands -/

/-- R121: GENLUT is accepted in every key state, waits for ENT, then fills LUT by the Fisher–Yates function or ends with
EntropyUnavailable and free bytes in LUT; INV is not written. -/
def Obligations.GenlutFillsLutOnceEntAnswers : Prop :=
  ∀ s : State,
    (s.busy = false → exec .genlut s = .next { s with
      cmd := 0x1, busy := true, done := false, err := false, ecode := .none, pend := [], entAns := none,
      lutV := false, invV := false, zd := false }) ∧
    (s.busy = true → s.running = some .genlut →
      (s.entAns = none → exec .genlut s = .next s) ∧
      (∀ j, s.entAns = some (.available j) → exec .genlut s = .next (settle { s with
        lut := fisherYates j.seq, lutV := true, busy := false, done := true, entAns := none })) ∧
      (s.entAns = some .unavailable → exec .genlut s = .next (settle { s with
        lut := anyTable s.free, free := s.free + 256, busy := false, done := false, err := true,
        ecode := .entropyUnavailable, entAns := none })))

/-- R262, R263: at ENT's turn a GENLUT that waits gets ENT's next answer, once; at any other time ENT changes nothing. -/
def Obligations.EntAnswersAWaitingGenlutOnce : Prop :=
  ∀ s : State, s.turn = .ent →
    (∀ (a : EntAnswer) (rest : List EntAnswer), s.busy = true → s.running = some .genlut → s.entAns = none →
      s.entScript = a :: rest →
      step s = .next { s with sched := s.sched.tail, entAns := some a, entScript := rest }) ∧
    (s.busy = false ∨ s.running ≠ some .genlut ∨ s.entAns ≠ none ∨ s.entScript = [] →
      step s = .next { s with sched := s.sched.tail })

/-- R132: the Fisher–Yates function gives a permutation for every draw sequence. -/
def Obligations.ShuffleGivesAPermutation : Prop :=
  ∀ j : DrawSeq, IsPermutation (fisherYates j)

/-- R122, R125: the legal draw sequences map one-to-one onto the permutations; in particular the loop must include
i = 254. -/
def Obligations.ShuffleReachesEveryPermutationOnce : Prop :=
  ∀ t : Table, IsPermutation t → ∃ j : Draws, fisherYates j.seq = t ∧ ∀ k : Draws, fisherYates k.seq = t → k = j

/-- R126: DERINV needs LUT_V; it writes the two-sided inverse of a permutation to INV, and ends with InvalidLut and free
bytes in INV otherwise; LUT and LUT_V never change. -/
def Obligations.DerinvInvertsAPermutation : Prop :=
  ∀ s : State,
    (s.busy = false → exec .derinv s = .next (
      if s.lutV = false then { s with done := false, err := true, ecode := .notKeyed }
      else { s with
        cmd := 0x2, busy := true, done := false, err := false, ecode := .none, pend := [], entAns := none,
        invV := false })) ∧
    (s.busy = true → s.running = some .derinv →
      (IsPermutation s.lut → ∃ inv' : Table, InverseOf inv' s.lut ∧ InverseOf s.lut inv' ∧
        exec .derinv s = .next (settle { s with
          inv := inv', invV := true, busy := false, done := true, entAns := none })) ∧
      (¬ IsPermutation s.lut → exec .derinv s = .next (settle { s with
        inv := anyTable s.free, free := s.free + 256, busy := false, done := false, err := true,
        ecode := .invalidLut, entAns := none })))

/-- R128: LDLUT is refused with BadAddress when SRC + 256 > MEM_BYTES; accepted, it makes LUT the 256 bytes at SRC and
LUT_V 1. A byte the HOST has contested reads as a free value (R75). -/
def Obligations.LdlutLoadsLutFromMemory : Prop :=
  ∀ s : State,
    (s.busy = false → exec .ldlut s = .next (
      if s.memBytes < s.src.toNat + 256 then { s with done := false, err := true, ecode := .badAddress }
      else { s with
        cmd := 0x8, busy := true, done := false, err := false, ecode := .none, pend := [], entAns := none,
        lutV := false, invV := false, zd := false })) ∧
    (s.busy = true → s.running = some .ldlut → s.src.toNat + 256 ≤ s.memBytes →
      ∃ (lut' : Table) (free' : Nat), (∀ i : Fin 256, s.src.toNat + i.val ∉ s.contested →
          lut'[i] = s.mem.read (s.src.toNat + i.val)) ∧ (s.contested = [] → free' = s.free) ∧
        exec .ldlut s = .next (settle { s with
          lut := lut', lutV := true, busy := false, done := true, entAns := none, free := free' }))

/-- R129: LDINV likewise for INV; it leaves LUT and LUT_V alone and clears ZD at acceptance. -/
def Obligations.LdinvLoadsInvFromMemory : Prop :=
  ∀ s : State,
    (s.busy = false → exec .ldinv s = .next (
      if s.memBytes < s.src.toNat + 256 then { s with done := false, err := true, ecode := .badAddress }
      else { s with
        cmd := 0x9, busy := true, done := false, err := false, ecode := .none, pend := [], entAns := none,
        invV := false, zd := false })) ∧
    (s.busy = true → s.running = some .ldinv → s.src.toNat + 256 ≤ s.memBytes →
      ∃ (inv' : Table) (free' : Nat), (∀ i : Fin 256, s.src.toNat + i.val ∉ s.contested →
          inv'[i] = s.mem.read (s.src.toNat + i.val)) ∧ (s.contested = [] → free' = s.free) ∧
        exec .ldinv s = .next (settle { s with
          inv := inv', invV := true, busy := false, done := true, entAns := none, free := free' }))

/-- R130: RDLUT needs LUT_V and DST + 256 ≤ MEM_BYTES; it writes LUT to the 256 bytes at DST and nothing else. -/
def Obligations.RdlutStoresLutToMemory : Prop :=
  ∀ s : State,
    (s.busy = false → exec .rdlut s = .next (
      if s.lutV = false then { s with done := false, err := true, ecode := .notKeyed }
      else if s.memBytes < s.dst.toNat + 256 then { s with done := false, err := true, ecode := .badAddress }
      else { s with
        cmd := 0xA, busy := true, done := false, err := false, ecode := .none, pend := [], entAns := none })) ∧
    (s.busy = true → s.running = some .rdlut → s.dst.toNat + 256 ≤ s.memBytes → s.mem.wf = true →
      ∃ mem' : Memory, (∀ i : Fin 256, mem'.read (s.dst.toNat + i.val) = s.lut[i]) ∧
        (∀ a, ¬ inRegion a s.dst.toNat 256 → mem'.read a = s.mem.read a) ∧
        exec .rdlut s = .next (settle { s with mem := mem', busy := false, done := true, entAns := none }))

/-- R131: RDINV likewise for INV and INV_V. -/
def Obligations.RdinvStoresInvToMemory : Prop :=
  ∀ s : State,
    (s.busy = false → exec .rdinv s = .next (
      if s.invV = false then { s with done := false, err := true, ecode := .notKeyed }
      else if s.memBytes < s.dst.toNat + 256 then { s with done := false, err := true, ecode := .badAddress }
      else { s with
        cmd := 0xB, busy := true, done := false, err := false, ecode := .none, pend := [], entAns := none })) ∧
    (s.busy = true → s.running = some .rdinv → s.dst.toNat + 256 ≤ s.memBytes → s.mem.wf = true →
      ∃ mem' : Memory, (∀ i : Fin 256, mem'.read (s.dst.toNat + i.val) = s.inv[i]) ∧
        (∀ a, ¬ inRegion a s.dst.toNat 256 → mem'.read a = s.mem.read a) ∧
        exec .rdinv s = .next (settle { s with mem := mem', busy := false, done := true, entAns := none }))

/-! ### Lifecycle and control -/

/-- R222: ZERO is accepted in every key state, clears both validity flags, then writes 0 to all 512 table bytes and sets
ZD. -/
def Obligations.ZeroClearsBothTables : Prop :=
  ∀ s : State,
    (s.busy = false → exec .zero s = .next { s with
      cmd := 0x7, busy := true, done := false, err := false, ecode := .none, pend := [], entAns := none,
      lutV := false, invV := false }) ∧
    (s.busy = true → s.running = some .zero → ∃ lut' inv' : Table,
      (∀ v : Byte, look lut' v = 0 ∧ look inv' v = 0) ∧
      exec .zero s = .next (settle { s with
        lut := lut', inv := inv', zd := true, busy := false, done := true, entAns := none }))

/-- R224: ABORT of any running command but ZERO: lanes idle, PEND empty, ERR with ECODE 8, the table being written free;
no key flag, no other table and no operand register changes. -/
def Obligations.AbortStopsARunningCommand : Prop :=
  ∀ (s : State) (c : Bool), s.busy = true → s.running ≠ some .zero →
    ∃ (lut' inv' : Table) (free' : Nat),
      (s.running ≠ some .genlut → s.running ≠ some .ldlut → lut' = s.lut) ∧
      (s.running ≠ some .derinv → s.running ≠ some .ldinv → inv' = s.inv) ∧
      exec (.abort c) s = .next (settle { s with
        lanes := List.replicate s.lanes.length .idle, pend := [], busy := false, done := false, err := true,
        ecode := .aborted, lut := lut', inv := inv', entAns := none, free := free' })

/-- R225: a write of CLR to CTRL while BUSY = 0 clears DONE, ERR and ECODE and nothing else, whatever its other bits. -/
def Obligations.ClrClearsTheStatus : Prop :=
  ∀ (s : State) (w : Word) (rest : List HostTxn), HostTurn s (.wr 5 w) rest → s.busy = false → w.getLsbD 1 = true →
    step s = .next { s with
      sched := s.sched.tail, script := rest, done := false, err := false, ecode := .none }

/-- R226: the control requests that do nothing. As instructions: CLR acts while idle only, ABORT with the CLR bit acts as
CLR while idle, ABORT does nothing while idle without it or while ZERO runs (R96). -/
def Obligations.ControlRequestsOutsideTheirCaseDoNothing : Prop :=
  (∀ (s : State) (w : Word) (rest : List HostTxn), HostTurn s (.wr 5 w) rest →
    (w.getLsbD 0 = true ∧ w.getLsbD 1 = false ∧ s.busy = false ∨
      w.getLsbD 0 = true ∧ s.busy = true ∧ s.running = some .zero ∨
      w.getLsbD 1 = true ∧ w.getLsbD 0 = false ∧ s.busy = true ∨
      w.getLsbD 0 = false ∧ w.getLsbD 1 = false) →
    step s = .next { s with sched := s.sched.tail, script := rest }) ∧
  (∀ s : State, s.busy = false →
    exec .clr s = .next { s with done := false, err := false, ecode := .none } ∧
    exec (.abort true) s = .next { s with done := false, err := false, ecode := .none } ∧
    exec (.abort false) s = .next s) ∧
  (∀ s : State, s.busy = true →
    exec .clr s = .next s ∧ (s.running = some .zero → ∀ c, exec (.abort c) s = .next s))

/-! ### The micro-operations as lane steps -/

/-- R151, R186: PACK reads the block's 16 bytes big-endian into the rows and the lane goes to LTR. A byte the HOST has
contested reads as a free value (R75). A block that does not lie inside MEM, which no run reaches, faults (log 11). -/
def Obligations.PackReadsTheBlockBigEndian : Prop :=
  ∀ (s : State) (r : LaneRegs), s.lanes[s.sel.lane]? = some (.pack r) →
    (s.src.toNat + 16 * r.blk + 16 ≤ s.memBytes → ∃ (rows : Rows) (free' : Nat),
      (∀ i : Fin 8, s.src.toNat + 16 * r.blk + 2 * i.val ∉ s.contested →
        s.src.toNat + 16 * r.blk + (2 * i.val + 1) ∉ s.contested →
        rows[i].toNat = 256 * (s.mem.read (s.src.toNat + 16 * r.blk + 2 * i.val)).toNat +
          (s.mem.read (s.src.toNat + 16 * r.blk + (2 * i.val + 1))).toNat) ∧
      (s.contested = [] → free' = s.free) ∧
      exec .pack s = .next { s with
        lanes := s.lanes.set s.sel.lane (.run .ltr r rows), free := free' }) ∧
    (s.memBytes < s.src.toNat + 16 * r.blk + 16 → exec .pack s = .fault .engineAddress)

/-- R152, R186: UNPACK writes the rows to the block's 16 bytes big-endian, changes no other byte, and leaves the lane
idle. A block that does not lie inside MEM, which no run reaches, faults (log 11). -/
def Obligations.UnpackWritesTheBlockBigEndian : Prop :=
  ∀ (s : State) (r : LaneRegs) (rows : Rows), s.lanes[s.sel.lane]? = some (.run .unpack r rows) → s.mem.wf = true →
    (s.dst.toNat + 16 * r.blk + 16 ≤ s.memBytes → ∃ mem' : Memory,
      (∀ i : Fin 8, (mem'.read (s.dst.toNat + 16 * r.blk + 2 * i.val)).toNat = rows[i].toNat / 256 ∧
        (mem'.read (s.dst.toNat + 16 * r.blk + (2 * i.val + 1))).toNat = rows[i].toNat % 256) ∧
      (∀ a, ¬ inRegion a (s.dst.toNat + 16 * r.blk) 16 → mem'.read a = s.mem.read a) ∧
      exec .unpack s = .next { s with mem := mem', lanes := s.lanes.set s.sel.lane .idle }) ∧
    (s.memBytes < s.dst.toNat + 16 * r.blk + 16 → exec .unpack s = .fault .engineAddress)

/-- R154, R186: LTR on every row, with the five lookups and the new high byte in numbers; the next phase is ARC when
encrypting, CS when decrypting. -/
def Obligations.LtrSubstitutesEveryRow : Prop :=
  ∀ (s : State) (r : LaneRegs) (rows : Rows), s.lanes[s.sel.lane]? = some (.run .ltr r rows) →
    ∃ rows' : Rows,
      (∀ i : Fin 8, ∃ h l t1 t3 t5 t7 t9 : Nat, h = rows[i].toNat / 256 ∧ l = rows[i].toNat % 256 ∧
        t1 = entryNat (s.tableOf r.dir) h ∧
        t3 = entryNat (s.tableOf r.dir) (t1 % 64 * 4 + l / 64) ∧
        t5 = entryNat (s.tableOf r.dir) (t3 % 64 * 4 + l / 16 % 4) ∧
        t7 = entryNat (s.tableOf r.dir) (t5 % 64 * 4 + l / 4 % 4) ∧
        t9 = entryNat (s.tableOf r.dir) (t7 % 64 * 4 + l % 4) ∧
        rows'[i].toNat = (t1 / 64 * 64 + t3 / 64 * 16 + t5 / 64 * 4 + t7 / 64) * 256 + t9) ∧
      exec .ltr s = .next { s with
        lanes := s.lanes.set s.sel.lane (.run (if r.dir = .enc then .arc else .cs) r rows') }

/-- R156, R186: RTL on every row, with the five lookups and the new low byte in numbers; the next phase is LTR of the
next round, or UNPACK after round 7. -/
def Obligations.RtlSubstitutesEveryRow : Prop :=
  ∀ (s : State) (r : LaneRegs) (rows : Rows), s.lanes[s.sel.lane]? = some (.run .rtl r rows) →
    ∃ rows' : Rows,
      (∀ i : Fin 8, ∃ h l t1 t3 t5 t7 t9 : Nat, h = rows[i].toNat / 256 ∧ l = rows[i].toNat % 256 ∧
        t1 = entryNat (s.tableOf r.dir) l ∧
        t3 = entryNat (s.tableOf r.dir) (h % 4 * 64 + t1 / 4) ∧
        t5 = entryNat (s.tableOf r.dir) (h / 4 % 4 * 64 + t3 / 4) ∧
        t7 = entryNat (s.tableOf r.dir) (h / 16 % 4 * 64 + t5 / 4) ∧
        t9 = entryNat (s.tableOf r.dir) (h / 64 * 64 + t7 / 4) ∧
        rows'[i].toNat = t9 * 256 + (t7 % 4 * 64 + t5 % 4 * 16 + t3 % 4 * 4 + t1 % 4)) ∧
      (∀ q : Fin 8, q.val = r.rnd.val + 1 → exec .rtl s = .next { s with
        lanes := s.lanes.set s.sel.lane (.run .ltr ⟨r.dir, r.blk, q⟩ rows') }) ∧
      (r.rnd = 7 → exec .rtl s = .next { s with lanes := s.lanes.set s.sel.lane (.run .unpack r rows') })

/-- R158, R186: CS substitutes each of the 16 columns, read with row 0 as its top bit, through the lane's table; the next
phase is RTL when encrypting, ARC when decrypting. -/
def Obligations.CsSubstitutesEveryColumn : Prop :=
  ∀ (s : State) (r : LaneRegs) (rows : Rows), s.lanes[s.sel.lane]? = some (.run .cs r rows) →
    ∃ rows' : Rows,
      (∀ c : Nat, c < 16 → columnNat rows' c = entryNat (s.tableOf r.dir) (columnNat rows c)) ∧
      exec .cs s = .next { s with
        lanes := s.lanes.set s.sel.lane (.run (if r.dir = .enc then .rtl else .arc) r rows') }

/-- R160, R184, R186: ARC flips in row i the one bit (15 - 2i + 2q) mod 16, with q = RND when encrypting and 7 - RND when
decrypting; the next phase is CS when encrypting, RTL when decrypting. -/
def Obligations.ArcFlipsOneBitPerRow : Prop :=
  ∀ (s : State) (r : LaneRegs) (rows : Rows) (q : Nat), s.lanes[s.sel.lane]? = some (.run .arc r rows) →
    (r.dir = .enc ∧ q = r.rnd.val ∨ r.dir = .dec ∧ q = 7 - r.rnd.val) →
    ∃ rows' : Rows,
      (∀ (i : Fin 8) (k : Nat), k < 16 →
        rows'[i].getLsbD k = ((rows[i].getLsbD k) ^^ decide (k = (15 - 2 * i.val + 2 * q) % 16))) ∧
      exec .arc s = .next { s with
        lanes := s.lanes.set s.sel.lane (.run (if r.dir = .enc then .cs else .rtl) r rows') }

/-! ### The round engine -/

/-- R159: bit k of v moves to bit (k + n) mod 16. -/
def Obligations.RotationMovesEveryBit : Prop :=
  ∀ (v : Row) (n k : Nat), n ≤ 15 → k < 16 → (rotl16 v n).getLsbD ((k + n) % 16) = v.getLsbD k

/-- R153: UNPACK and PACK are inverse, and their bytes are the bits of the matrix as R22 numbers them. -/
def Obligations.PackAndUnpackAreInverse : Prop :=
  (∀ b : Block, unpackRows (packRows b) = b) ∧ (∀ r : Rows, packRows (unpackRows r) = r) ∧
  (∀ (b : Block) (r : Fin 8) (k : Fin 8),
    (b[2 * r.val]'(by omega)).getLsbD (7 - k.val) = matrixBit (packRows b) r ⟨k.val, by omega⟩ ∧
    (b[2 * r.val + 1]'(by omega)).getLsbD (7 - k.val) = matrixBit (packRows b) r ⟨8 + k.val, by omega⟩)

/-- R162: with a permutation and its inverse, LTR undoes RTL and RTL undoes LTR. -/
def Obligations.LtrAndRtlUndoEachOther : Prop :=
  ∀ (t t' : Table) (x : Row), IsPermutation t → InverseOf t' t →
    ltrRow t' (rtlRow t x) = x ∧ rtlRow t' (ltrRow t x) = x

/-- R163: CS with the inverse table undoes CS; ARC with the same index undoes itself. -/
def Obligations.CsAndArcUndoThemselves : Prop :=
  (∀ (t t' : Table) (rows : Rows), IsPermutation t → InverseOf t' t → csRows t' (csRows t rows) = rows) ∧
  (∀ (q : Nat) (rows : Rows), q ≤ 7 → arcRows q (arcRows q rows) = rows)

/-- R164: with the identity table LTR, RTL and CS leave every state unchanged. -/
def Obligations.IdentityTableLeavesRowsUnchanged : Prop :=
  ∀ rows : Rows, ltrRows identityTable rows = rows ∧ rtlRows identityTable rows = rows ∧
    csRows identityTable rows = rows

/-- R189: with the identity table both block functions XOR 0xAA into every byte. -/
def Obligations.IdentityTableXorsAA : Prop :=
  ∀ b : Block, encBlock identityTable b = Vector.ofFn (fun i => b[i] ^^^ (0xAA : Byte)) ∧
    decBlock identityTable b = Vector.ofFn (fun i => b[i] ^^^ (0xAA : Byte))

/-- R188: decryption with the inverse table undoes encryption, and encryption undoes such a decryption. -/
def Obligations.DecryptionUndoesEncryption : Prop :=
  ∀ (t t' : Table) (b : Block), IsPermutation t → InverseOf t' t →
    decBlock t' (encBlock t b) = b ∧ encBlock t (decBlock t' b) = b

/-! ### Runs -/

/-- R186, R187: 34 turns of one lane, from PACK of round 0, replace its destination block by the block function of its
source block and change nothing else. -/
def Obligations.LaneRunsOneBlockInThirtyFourSteps : Prop :=
  ∀ (s : State) (l : Nat) (r : LaneRegs) (rest : List Turn), s.lanes[l]? = some (.pack r) → r.rnd = 0 →
    s.sched = List.replicate 34 (.lane l) ++ rest → s.contested = [] →
    blockAddr s.src r.blk + 16 ≤ s.memBytes → blockAddr s.dst r.blk + 16 ≤ s.memBytes →
    core.run 34 s = .next { s with
      sched := rest, sel := ⟨s.sel.blk, l⟩, lanes := s.lanes.set l .idle,
      mem := s.mem.writeBytes (blockAddr s.dst r.blk)
        (blockFn r.dir (s.tableOf r.dir) (s.mem.readBytes (blockAddr s.src r.blk) 16)).toList }

/-- R200, R201, R206, R208: the net effect, read byte by byte: every destination block is the transform of the source
block as the source held it at the start, whatever the other blocks are, and every byte outside the destination is
unchanged. -/
def Obligations.NetEffectTransformsEveryBlock : Prop :=
  ∀ (f : Block → Block) (m : Memory) (src dst : Word) (n : Nat), m.wf = true →
    (netEffect f m src dst n).wf = true ∧
    (∀ k, k < n → (netEffect f m src dst n).readBytes (blockAddr dst k) 16 = f (m.readBytes (blockAddr src k) 16)) ∧
    (∀ a, ¬ inRegion a dst.toNat (16 * n) → (netEffect f m src dst n).read a = m.read a)

/-- R207: bulk encryption followed by bulk decryption with the inverse table gives back the buffer, in place or not. -/
def Obligations.BulkDecryptionRestoresTheBuffer : Prop :=
  ∀ (t t' : Table) (m : Memory) (a b c : Word) (n k : Nat), IsPermutation t → InverseOf t' t → m.wf = true → k < n →
    (netEffect (decBlock t') (netEffect (encBlock t) m a b n) b c n).readBytes (blockAddr c k) 16 =
      m.readBytes (blockAddr a k) 16

/-- R204: schedule independence. From the acceptance of a cipher command, with no reset and only HOST transactions that do
not interfere (R75: register reads, polls, accesses to bytes outside the buffers), every run that reaches BUSY = 0,
whatever the number of lanes, the dispatcher's choices and the interleaving, ends with DONE = 1 and no error, and every
byte of MEM is that of the net effect or one that the HOST has written there. -/
def Obligations.EveryScheduleGivesTheNetEffect : Prop :=
  ∀ (s t : State) (i : Instr) (d : Dir) (n : Nat), JustAccepted i d s →
    (∀ x ∈ s.script, quietTxn s.src s.dst (16 * blockCount i s.len) x = true) → NoReset s →
    core.run n s = .next t → t.busy = false →
    t.mem.wf = true ∧
    (∀ a, t.mem.read a = (netEffect (blockFn d (s.tableOf d)) s.mem s.src s.dst (blockCount i s.len)).read a ∨
      ∃ b, .wm a b ∈ s.script ∧ t.mem.read a = b) ∧
    t.done = true ∧ t.err = false ∧ t.lut = s.lut ∧ t.inv = s.inv ∧ t.keyFlags = s.keyFlags

/-- R224, R67: at every moment of a cipher command that the HOST may abort, whatever else it does without interfering
(R75), every destination block is whole: it holds its old bytes or its result; every byte outside the destination is
unchanged or one that the HOST has written there. -/
def Obligations.AbortLeavesWholeBlocks : Prop :=
  ∀ (s t : State) (i : Instr) (d : Dir) (n : Nat), JustAccepted i d s →
    (∀ x ∈ s.script, (∃ w, x = .wr 5 w) ∨ quietTxn s.src s.dst (16 * blockCount i s.len) x = true) → NoReset s →
    core.run n s = .next t →
    (∀ k, k < blockCount i s.len →
      t.mem.readBytes (blockAddr s.dst k) 16 = s.mem.readBytes (blockAddr s.dst k) 16 ∨
      t.mem.readBytes (blockAddr s.dst k) 16 =
        blockFn d (s.tableOf d) (s.mem.readBytes (blockAddr s.src k) 16)) ∧
    (∀ a, ¬ inRegion a s.dst.toNat (16 * blockCount i s.len) →
      t.mem.read a = s.mem.read a ∨ ∃ b, .wm a b ∈ s.script ∧ t.mem.read a = b)

/-- R203: an accepted cipher command completes. Under the order the model takes when the schedule holds no turn (log 1,
the model's choice) it takes 35 steps a block and one to complete. -/
def Obligations.CipherCommandsEnd : Prop :=
  ∀ (s : State) (i : Instr) (d : Dir), JustAccepted i d s → s.sched = [] →
    ∃ t : State, core.run (35 * blockCount i s.len + 1) s = .next t ∧ t.busy = false ∧ t.done = true

/-- R182, R183, R102: the host script `ENCB a, d` or `DECB a, d` from an idle state with the table valid: three writes,
35 steps for the block, the completion and one poll. MEM then holds the block function of the source at the destination
and the poll returns the final STATUS. The order of the steps is the one the model takes when the schedule holds no
turn (log 1, the model's choice). -/
def Obligations.BlockScriptsTransformOneBlock : Prop :=
  ∀ (s : State) (a d : Word) (p : Pseudo) (dir : Dir), Inv s → s.busy = false → s.sched = [] →
    (p = .encb a d ∧ dir = .enc ∧ s.lutV = true ∨ p = .decb a d ∧ dir = .dec ∧ s.invV = true) →
    s.script = scriptTxns (pseudoStmts p) →
    a.toNat + 16 ≤ s.memBytes → d.toNat + 16 ≤ s.memBytes → aliasLegal a d 16 →
    ∃ t : State, core.run 40 s = .next t ∧ t.busy = false ∧ t.done = true ∧ t.script = [] ∧
      t.mem = s.mem.writeBytes d.toNat (blockFn dir (s.tableOf dir) (s.mem.readBytes a.toNat 16)).toList ∧
      t.replies = .word (statusWord t) :: s.replies

/-! ### What a step can change -/

/-- R26, R27: LUT changes only at a SEQ step of GENLUT, LDLUT or ZERO, at the HOST's ABORT write while GENLUT or LDLUT
runs, or at reset; INV only at a SEQ step of DERINV, LDINV or ZERO, at the HOST's ABORT write while DERINV or LDINV runs,
or at reset. -/
def Obligations.TablesChangeOnlyByTheirCommands : Prop :=
  ∀ s t : State, step s = .next t →
    (t.lut ≠ s.lut → s.turn = .reset ∨
      (s.busy = true ∧ (∃ k l, s.turn = .seq k l) ∧
        (s.running = some .genlut ∨ s.running = some .ldlut ∨ s.running = some .zero)) ∨
      (s.busy = true ∧ (∃ (w : Word) (rest : List HostTxn), HostTurn s (.wr 5 w) rest ∧ w.getLsbD 0 = true) ∧
        (s.running = some .genlut ∨ s.running = some .ldlut))) ∧
    (t.inv ≠ s.inv → s.turn = .reset ∨
      (s.busy = true ∧ (∃ k l, s.turn = .seq k l) ∧
        (s.running = some .derinv ∨ s.running = some .ldinv ∨ s.running = some .zero)) ∨
      (s.busy = true ∧ (∃ (w : Word) (rest : List HostTxn), HostTurn s (.wr 5 w) rest ∧ w.getLsbD 0 = true) ∧
        (s.running = some .derinv ∨ s.running = some .ldinv)))

/-- R41, R281, R28: while a table is not valid its bytes are unreadable: two states that differ only in that table step
alike, and differ afterwards only in it, and not even there once it is valid. -/
def Obligations.InvalidTablesCannotBeRead : Prop :=
  ∀ (s : State) (x : Table), Inv s →
    (s.lutV = false →
      (∀ t, step s = .next t → ∃ y : Table, step { s with lut := x } = .next { t with lut := y } ∧
        (t.lutV = true → y = t.lut)) ∧
      (∀ f, step s = .fault f → step { s with lut := x } = .fault f)) ∧
    (s.invV = false →
      (∀ t, step s = .next t → ∃ y : Table, step { s with inv := x } = .next { t with inv := y } ∧
        (t.invV = true → y = t.inv)) ∧
      (∀ f, step s = .fault f → step { s with inv := x } = .fault f))

/-- R98, R103: BUSY rises only when the HOST writes a command word to CMD, which CMD then holds; it falls only at a step
of SEQ, with DONE or with InvalidLut or EntropyUnavailable, at an ABORT request, with Aborted, or at reset, with
STATUS 0. -/
def Obligations.CommandsBeginAndEndOnlyAsStated : Prop :=
  ∀ s t : State, step s = .next t →
    (s.busy = false → t.busy = true →
      ∃ (w : Word) (rest : List HostTxn) (i : Instr), HostTurn s (.wr 0 w) rest ∧ decode (.cmdw w) = .ok i ∧
        t.cmd = w) ∧
    (s.busy = true → t.busy = false →
      (s.turn = .reset ∧ statusWord t = 0) ∨
      ((∃ k l, s.turn = .seq k l) ∧
        (t.done = true ∨ t.err = true ∧ (t.ecode = .invalidLut ∨ t.ecode = .entropyUnavailable))) ∨
      (∃ (w : Word) (rest : List HostTxn), HostTurn s (.wr 5 w) rest ∧ w.getLsbD 0 = true ∧ t.err = true ∧
        t.ecode = .aborted))

/-! ### Host scripts -/

/-- R101: `wait` is R(1) repeated until BUSY reads 0. -/
def Obligations.WaitPollsStatusUntilIdle : Prop :=
  ∀ (s : State) (rest : List HostTxn), HostTurn s .wait rest →
    step s = .next { s with
      sched := s.sched.tail, script := if s.busy = true then .wait :: rest else rest,
      replies := .word (statusWord s) :: s.replies }

/-- R101, R102: the register writes that the pseudo-instructions stand for. -/
def Obligations.PseudoInstructionsExpand : Prop :=
  (∀ s d n : Word, scriptTxns (pseudoStmts (.enc s d n)) = [.wr 2 s, .wr 3 d, .wr 4 n, .wr 0 0x5, .wait] ∧
    scriptTxns (pseudoStmts (.dec s d n)) = [.wr 2 s, .wr 3 d, .wr 4 n, .wr 0 0x6, .wait] ∧
    scriptTxns (pseudoStmts (.encb s d)) = [.wr 2 s, .wr 3 d, .wr 0 0x3, .wait] ∧
    scriptTxns (pseudoStmts (.decb s d)) = [.wr 2 s, .wr 3 d, .wr 0 0x4, .wait] ∧
    scriptTxns (pseudoStmts (.ldlut s)) = [.wr 2 s, .wr 0 0x8, .wait] ∧
    scriptTxns (pseudoStmts (.ldinv s)) = [.wr 2 s, .wr 0 0x9, .wait] ∧
    scriptTxns (pseudoStmts (.rdlut d)) = [.wr 3 d, .wr 0 0xA, .wait] ∧
    scriptTxns (pseudoStmts (.rdinv d)) = [.wr 3 d, .wr 0 0xB, .wait]) ∧
  scriptTxns (pseudoStmts .genlut) = [.wr 0 0x1, .wait] ∧ scriptTxns (pseudoStmts .derinv) = [.wr 0 0x2, .wait] ∧
  scriptTxns (pseudoStmts .zero) = [.wr 0 0x7, .wait] ∧ scriptTxns (pseudoStmts .abort) = [.wr 5 0x1] ∧
  scriptTxns (pseudoStmts .clr) = [.wr 5 0x2]

/-! ### Moves that are not enabled -/

/-- A move that is not enabled changes nothing (R185, R186, R202, R203; that the model takes such a turn and leaves the
state as it is, is the model's choice, log 8): a command that is not the running one, a dispatch of a block that is not
pending or to a lane that is not idle, the completion of a cipher command while a lane is active, a micro-operation that
is not the phase of the lane. -/
def Obligations.MovesThatAreNotEnabledChangeNothing : Prop :=
  (∀ (i : Instr) (s : State), profileOf i ≠ none → s.busy = true → s.running ≠ some i → exec i s = .next s) ∧
  (∀ (i : Instr) (s : State), (i = .encb ∨ i = .decb ∨ i = .enc ∨ i = .dec) → s.busy = true → s.running = some i →
    (s.pend ≠ [] → s.sel.blk ∉ s.pend ∨ s.lanes[s.sel.lane]? ≠ some .idle → exec i s = .next s) ∧
    (s.pend = [] → (∃ l ∈ s.lanes, l ≠ .idle) → exec i s = .next s)) ∧
  (∀ (i : Instr) (p : BitVec 3) (s : State), decode (.ph p) = .ok i →
    (∀ l, s.lanes[s.sel.lane]? = some l → l.phase ≠ p) → exec i s = .next s)
end

