-- ==== Sys2Proof/Laws/State.lean ====
section
/-! SUPPORT. Field by field, what the named updates of State do: one lemma per field per update. -/

namespace Sys2Proof.Machine

-- one theorem at a time: each thread of its own would reserve memory
set_option Elab.async false

variable (s : State)

/-! ### setKeyFlags -/

@[simp] theorem setKeyFlags_cmd (f : KeyFlags) : (s.setKeyFlags f).cmd = s.cmd := rfl
@[simp] theorem setKeyFlags_busy (f : KeyFlags) : (s.setKeyFlags f).busy = s.busy := rfl
@[simp] theorem setKeyFlags_done (f : KeyFlags) : (s.setKeyFlags f).done = s.done := rfl
@[simp] theorem setKeyFlags_err (f : KeyFlags) : (s.setKeyFlags f).err = s.err := rfl
@[simp] theorem setKeyFlags_ecode (f : KeyFlags) : (s.setKeyFlags f).ecode = s.ecode := rfl
@[simp] theorem setKeyFlags_lutV (f : KeyFlags) : (s.setKeyFlags f).lutV = f.lutV := rfl
@[simp] theorem setKeyFlags_invV (f : KeyFlags) : (s.setKeyFlags f).invV = f.invV := rfl
@[simp] theorem setKeyFlags_zd (f : KeyFlags) : (s.setKeyFlags f).zd = f.zd := rfl
@[simp] theorem setKeyFlags_src (f : KeyFlags) : (s.setKeyFlags f).src = s.src := rfl
@[simp] theorem setKeyFlags_dst (f : KeyFlags) : (s.setKeyFlags f).dst = s.dst := rfl
@[simp] theorem setKeyFlags_len (f : KeyFlags) : (s.setKeyFlags f).len = s.len := rfl
@[simp] theorem setKeyFlags_lut (f : KeyFlags) : (s.setKeyFlags f).lut = s.lut := rfl
@[simp] theorem setKeyFlags_inv (f : KeyFlags) : (s.setKeyFlags f).inv = s.inv := rfl
@[simp] theorem setKeyFlags_lanes (f : KeyFlags) : (s.setKeyFlags f).lanes = s.lanes := rfl
@[simp] theorem setKeyFlags_pend (f : KeyFlags) : (s.setKeyFlags f).pend = s.pend := rfl
@[simp] theorem setKeyFlags_mem (f : KeyFlags) : (s.setKeyFlags f).mem = s.mem := rfl
@[simp] theorem setKeyFlags_memBytes (f : KeyFlags) : (s.setKeyFlags f).memBytes = s.memBytes := rfl
@[simp] theorem setKeyFlags_script (f : KeyFlags) : (s.setKeyFlags f).script = s.script := rfl
@[simp] theorem setKeyFlags_replies (f : KeyFlags) : (s.setKeyFlags f).replies = s.replies := rfl
@[simp] theorem setKeyFlags_sched (f : KeyFlags) : (s.setKeyFlags f).sched = s.sched := rfl
@[simp] theorem setKeyFlags_sel (f : KeyFlags) : (s.setKeyFlags f).sel = s.sel := rfl
@[simp] theorem setKeyFlags_entScript (f : KeyFlags) : (s.setKeyFlags f).entScript = s.entScript := rfl
@[simp] theorem setKeyFlags_entAns (f : KeyFlags) : (s.setKeyFlags f).entAns = s.entAns := rfl
@[simp] theorem setKeyFlags_contested (f : KeyFlags) : (s.setKeyFlags f).contested = s.contested := rfl
@[simp] theorem setKeyFlags_free (f : KeyFlags) : (s.setKeyFlags f).free = s.free := rfl
@[simp] theorem setKeyFlags_running (f : KeyFlags) : (s.setKeyFlags f).running = s.running := rfl
@[simp] theorem setKeyFlags_allIdle (f : KeyFlags) : (s.setKeyFlags f).allIdle = s.allIdle := rfl
@[simp] theorem setKeyFlags_selLane (f : KeyFlags) : (s.setKeyFlags f).selLane = s.selLane := rfl
@[simp] theorem setKeyFlags_tableOf (f : KeyFlags) (d : Dir) : (s.setKeyFlags f).tableOf d = s.tableOf d := by cases d <;> rfl

/-! ### lutAny -/

@[simp] theorem lutAny_cmd : (lutAny s).cmd = s.cmd := rfl
@[simp] theorem lutAny_busy : (lutAny s).busy = s.busy := rfl
@[simp] theorem lutAny_done : (lutAny s).done = s.done := rfl
@[simp] theorem lutAny_err : (lutAny s).err = s.err := rfl
@[simp] theorem lutAny_ecode : (lutAny s).ecode = s.ecode := rfl
@[simp] theorem lutAny_lutV : (lutAny s).lutV = s.lutV := rfl
@[simp] theorem lutAny_invV : (lutAny s).invV = s.invV := rfl
@[simp] theorem lutAny_zd : (lutAny s).zd = s.zd := rfl
@[simp] theorem lutAny_src : (lutAny s).src = s.src := rfl
@[simp] theorem lutAny_dst : (lutAny s).dst = s.dst := rfl
@[simp] theorem lutAny_len : (lutAny s).len = s.len := rfl
@[simp] theorem lutAny_lut : (lutAny s).lut = anyTable s.free := rfl
@[simp] theorem lutAny_inv : (lutAny s).inv = s.inv := rfl
@[simp] theorem lutAny_lanes : (lutAny s).lanes = s.lanes := rfl
@[simp] theorem lutAny_pend : (lutAny s).pend = s.pend := rfl
@[simp] theorem lutAny_mem : (lutAny s).mem = s.mem := rfl
@[simp] theorem lutAny_memBytes : (lutAny s).memBytes = s.memBytes := rfl
@[simp] theorem lutAny_script : (lutAny s).script = s.script := rfl
@[simp] theorem lutAny_replies : (lutAny s).replies = s.replies := rfl
@[simp] theorem lutAny_sched : (lutAny s).sched = s.sched := rfl
@[simp] theorem lutAny_sel : (lutAny s).sel = s.sel := rfl
@[simp] theorem lutAny_entScript : (lutAny s).entScript = s.entScript := rfl
@[simp] theorem lutAny_entAns : (lutAny s).entAns = s.entAns := rfl
@[simp] theorem lutAny_contested : (lutAny s).contested = s.contested := rfl
@[simp] theorem lutAny_free : (lutAny s).free = s.free + Config.tableLen := rfl
@[simp] theorem lutAny_running : (lutAny s).running = s.running := rfl
@[simp] theorem lutAny_keyFlags : (lutAny s).keyFlags = s.keyFlags := rfl
@[simp] theorem lutAny_allIdle : (lutAny s).allIdle = s.allIdle := rfl
@[simp] theorem lutAny_selLane : (lutAny s).selLane = s.selLane := rfl

/-! ### invAny -/

@[simp] theorem invAny_cmd : (invAny s).cmd = s.cmd := rfl
@[simp] theorem invAny_busy : (invAny s).busy = s.busy := rfl
@[simp] theorem invAny_done : (invAny s).done = s.done := rfl
@[simp] theorem invAny_err : (invAny s).err = s.err := rfl
@[simp] theorem invAny_ecode : (invAny s).ecode = s.ecode := rfl
@[simp] theorem invAny_lutV : (invAny s).lutV = s.lutV := rfl
@[simp] theorem invAny_invV : (invAny s).invV = s.invV := rfl
@[simp] theorem invAny_zd : (invAny s).zd = s.zd := rfl
@[simp] theorem invAny_src : (invAny s).src = s.src := rfl
@[simp] theorem invAny_dst : (invAny s).dst = s.dst := rfl
@[simp] theorem invAny_len : (invAny s).len = s.len := rfl
@[simp] theorem invAny_lut : (invAny s).lut = s.lut := rfl
@[simp] theorem invAny_inv : (invAny s).inv = anyTable s.free := rfl
@[simp] theorem invAny_lanes : (invAny s).lanes = s.lanes := rfl
@[simp] theorem invAny_pend : (invAny s).pend = s.pend := rfl
@[simp] theorem invAny_mem : (invAny s).mem = s.mem := rfl
@[simp] theorem invAny_memBytes : (invAny s).memBytes = s.memBytes := rfl
@[simp] theorem invAny_script : (invAny s).script = s.script := rfl
@[simp] theorem invAny_replies : (invAny s).replies = s.replies := rfl
@[simp] theorem invAny_sched : (invAny s).sched = s.sched := rfl
@[simp] theorem invAny_sel : (invAny s).sel = s.sel := rfl
@[simp] theorem invAny_entScript : (invAny s).entScript = s.entScript := rfl
@[simp] theorem invAny_entAns : (invAny s).entAns = s.entAns := rfl
@[simp] theorem invAny_contested : (invAny s).contested = s.contested := rfl
@[simp] theorem invAny_free : (invAny s).free = s.free + Config.tableLen := rfl
@[simp] theorem invAny_running : (invAny s).running = s.running := rfl
@[simp] theorem invAny_keyFlags : (invAny s).keyFlags = s.keyFlags := rfl
@[simp] theorem invAny_allIdle : (invAny s).allIdle = s.allIdle := rfl
@[simp] theorem invAny_selLane : (invAny s).selLane = s.selLane := rfl

/-! ### setSelLane -/

@[simp] theorem setSelLane_cmd (l : Lane) : (s.setSelLane l).cmd = s.cmd := rfl
@[simp] theorem setSelLane_busy (l : Lane) : (s.setSelLane l).busy = s.busy := rfl
@[simp] theorem setSelLane_done (l : Lane) : (s.setSelLane l).done = s.done := rfl
@[simp] theorem setSelLane_err (l : Lane) : (s.setSelLane l).err = s.err := rfl
@[simp] theorem setSelLane_ecode (l : Lane) : (s.setSelLane l).ecode = s.ecode := rfl
@[simp] theorem setSelLane_lutV (l : Lane) : (s.setSelLane l).lutV = s.lutV := rfl
@[simp] theorem setSelLane_invV (l : Lane) : (s.setSelLane l).invV = s.invV := rfl
@[simp] theorem setSelLane_zd (l : Lane) : (s.setSelLane l).zd = s.zd := rfl
@[simp] theorem setSelLane_src (l : Lane) : (s.setSelLane l).src = s.src := rfl
@[simp] theorem setSelLane_dst (l : Lane) : (s.setSelLane l).dst = s.dst := rfl
@[simp] theorem setSelLane_len (l : Lane) : (s.setSelLane l).len = s.len := rfl
@[simp] theorem setSelLane_lut (l : Lane) : (s.setSelLane l).lut = s.lut := rfl
@[simp] theorem setSelLane_inv (l : Lane) : (s.setSelLane l).inv = s.inv := rfl
@[simp] theorem setSelLane_lanes (l : Lane) : (s.setSelLane l).lanes = s.lanes.set s.sel.lane l := rfl
@[simp] theorem setSelLane_pend (l : Lane) : (s.setSelLane l).pend = s.pend := rfl
@[simp] theorem setSelLane_mem (l : Lane) : (s.setSelLane l).mem = s.mem := rfl
@[simp] theorem setSelLane_memBytes (l : Lane) : (s.setSelLane l).memBytes = s.memBytes := rfl
@[simp] theorem setSelLane_script (l : Lane) : (s.setSelLane l).script = s.script := rfl
@[simp] theorem setSelLane_replies (l : Lane) : (s.setSelLane l).replies = s.replies := rfl
@[simp] theorem setSelLane_sched (l : Lane) : (s.setSelLane l).sched = s.sched := rfl
@[simp] theorem setSelLane_sel (l : Lane) : (s.setSelLane l).sel = s.sel := rfl
@[simp] theorem setSelLane_entScript (l : Lane) : (s.setSelLane l).entScript = s.entScript := rfl
@[simp] theorem setSelLane_entAns (l : Lane) : (s.setSelLane l).entAns = s.entAns := rfl
@[simp] theorem setSelLane_contested (l : Lane) : (s.setSelLane l).contested = s.contested := rfl
@[simp] theorem setSelLane_free (l : Lane) : (s.setSelLane l).free = s.free := rfl
@[simp] theorem setSelLane_running (l : Lane) : (s.setSelLane l).running = s.running := rfl
@[simp] theorem setSelLane_keyFlags (l : Lane) : (s.setSelLane l).keyFlags = s.keyFlags := rfl
@[simp] theorem setSelLane_tableOf (l : Lane) (d : Dir) : (s.setSelLane l).tableOf d = s.tableOf d := by cases d <;> rfl

/-! ### contest -/

@[simp] theorem contest_cmd (a : Nat) : (contest a s).cmd = s.cmd := rfl
@[simp] theorem contest_busy (a : Nat) : (contest a s).busy = s.busy := rfl
@[simp] theorem contest_done (a : Nat) : (contest a s).done = s.done := rfl
@[simp] theorem contest_err (a : Nat) : (contest a s).err = s.err := rfl
@[simp] theorem contest_ecode (a : Nat) : (contest a s).ecode = s.ecode := rfl
@[simp] theorem contest_lutV (a : Nat) : (contest a s).lutV = s.lutV := rfl
@[simp] theorem contest_invV (a : Nat) : (contest a s).invV = s.invV := rfl
@[simp] theorem contest_zd (a : Nat) : (contest a s).zd = s.zd := rfl
@[simp] theorem contest_src (a : Nat) : (contest a s).src = s.src := rfl
@[simp] theorem contest_dst (a : Nat) : (contest a s).dst = s.dst := rfl
@[simp] theorem contest_len (a : Nat) : (contest a s).len = s.len := rfl
@[simp] theorem contest_lut (a : Nat) : (contest a s).lut = s.lut := rfl
@[simp] theorem contest_inv (a : Nat) : (contest a s).inv = s.inv := rfl
@[simp] theorem contest_lanes (a : Nat) : (contest a s).lanes = s.lanes := rfl
@[simp] theorem contest_pend (a : Nat) : (contest a s).pend = s.pend := rfl
@[simp] theorem contest_mem (a : Nat) : (contest a s).mem = s.mem := rfl
@[simp] theorem contest_memBytes (a : Nat) : (contest a s).memBytes = s.memBytes := rfl
@[simp] theorem contest_script (a : Nat) : (contest a s).script = s.script := rfl
@[simp] theorem contest_replies (a : Nat) : (contest a s).replies = s.replies := rfl
@[simp] theorem contest_sched (a : Nat) : (contest a s).sched = s.sched := rfl
@[simp] theorem contest_sel (a : Nat) : (contest a s).sel = s.sel := rfl
@[simp] theorem contest_entScript (a : Nat) : (contest a s).entScript = s.entScript := rfl
@[simp] theorem contest_entAns (a : Nat) : (contest a s).entAns = s.entAns := rfl
@[simp] theorem contest_contested (a : Nat) : (contest a s).contested = if a ∈ s.contested then s.contested else a :: s.contested := rfl
@[simp] theorem contest_free (a : Nat) : (contest a s).free = s.free := rfl
@[simp] theorem contest_running (a : Nat) : (contest a s).running = s.running := rfl
@[simp] theorem contest_keyFlags (a : Nat) : (contest a s).keyFlags = s.keyFlags := rfl
@[simp] theorem contest_allIdle (a : Nat) : (contest a s).allIdle = s.allIdle := rfl
@[simp] theorem contest_selLane (a : Nat) : (contest a s).selLane = s.selLane := rfl
@[simp] theorem contest_tableOf (a : Nat) (d : Dir) : (contest a s).tableOf d = s.tableOf d := by cases d <;> rfl

/-! ### settle -/

@[simp] theorem settle_cmd : (settle s).cmd = s.cmd := rfl
@[simp] theorem settle_busy : (settle s).busy = s.busy := rfl
@[simp] theorem settle_done : (settle s).done = s.done := rfl
@[simp] theorem settle_err : (settle s).err = s.err := rfl
@[simp] theorem settle_ecode : (settle s).ecode = s.ecode := rfl
@[simp] theorem settle_lutV : (settle s).lutV = s.lutV := rfl
@[simp] theorem settle_invV : (settle s).invV = s.invV := rfl
@[simp] theorem settle_zd : (settle s).zd = s.zd := rfl
@[simp] theorem settle_src : (settle s).src = s.src := rfl
@[simp] theorem settle_dst : (settle s).dst = s.dst := rfl
@[simp] theorem settle_len : (settle s).len = s.len := rfl
@[simp] theorem settle_lut : (settle s).lut = s.lut := rfl
@[simp] theorem settle_inv : (settle s).inv = s.inv := rfl
@[simp] theorem settle_lanes : (settle s).lanes = s.lanes := rfl
@[simp] theorem settle_pend : (settle s).pend = s.pend := rfl
@[simp] theorem settle_mem : (settle s).mem = settleBytes s.free s.contested s.mem := rfl
@[simp] theorem settle_memBytes : (settle s).memBytes = s.memBytes := rfl
@[simp] theorem settle_script : (settle s).script = s.script := rfl
@[simp] theorem settle_replies : (settle s).replies = s.replies := rfl
@[simp] theorem settle_sched : (settle s).sched = s.sched := rfl
@[simp] theorem settle_sel : (settle s).sel = s.sel := rfl
@[simp] theorem settle_entScript : (settle s).entScript = s.entScript := rfl
@[simp] theorem settle_entAns : (settle s).entAns = s.entAns := rfl
@[simp] theorem settle_contested : (settle s).contested = [] := rfl
@[simp] theorem settle_free : (settle s).free = s.free + s.contested.length := rfl
@[simp] theorem settle_running : (settle s).running = s.running := rfl
@[simp] theorem settle_keyFlags : (settle s).keyFlags = s.keyFlags := rfl
@[simp] theorem settle_allIdle : (settle s).allIdle = s.allIdle := rfl
@[simp] theorem settle_selLane : (settle s).selLane = s.selLane := rfl
@[simp] theorem settle_tableOf (d : Dir) : (settle s).tableOf d = s.tableOf d := by cases d <;> rfl

/-! ### afterEngineRead -/

@[simp] theorem afterEngineRead_cmd (n : Nat) : (afterEngineRead n s).cmd = s.cmd := rfl
@[simp] theorem afterEngineRead_busy (n : Nat) : (afterEngineRead n s).busy = s.busy := rfl
@[simp] theorem afterEngineRead_done (n : Nat) : (afterEngineRead n s).done = s.done := rfl
@[simp] theorem afterEngineRead_err (n : Nat) : (afterEngineRead n s).err = s.err := rfl
@[simp] theorem afterEngineRead_ecode (n : Nat) : (afterEngineRead n s).ecode = s.ecode := rfl
@[simp] theorem afterEngineRead_lutV (n : Nat) : (afterEngineRead n s).lutV = s.lutV := rfl
@[simp] theorem afterEngineRead_invV (n : Nat) : (afterEngineRead n s).invV = s.invV := rfl
@[simp] theorem afterEngineRead_zd (n : Nat) : (afterEngineRead n s).zd = s.zd := rfl
@[simp] theorem afterEngineRead_src (n : Nat) : (afterEngineRead n s).src = s.src := rfl
@[simp] theorem afterEngineRead_dst (n : Nat) : (afterEngineRead n s).dst = s.dst := rfl
@[simp] theorem afterEngineRead_len (n : Nat) : (afterEngineRead n s).len = s.len := rfl
@[simp] theorem afterEngineRead_lut (n : Nat) : (afterEngineRead n s).lut = s.lut := rfl
@[simp] theorem afterEngineRead_inv (n : Nat) : (afterEngineRead n s).inv = s.inv := rfl
@[simp] theorem afterEngineRead_lanes (n : Nat) : (afterEngineRead n s).lanes = s.lanes := rfl
@[simp] theorem afterEngineRead_pend (n : Nat) : (afterEngineRead n s).pend = s.pend := rfl
@[simp] theorem afterEngineRead_mem (n : Nat) : (afterEngineRead n s).mem = s.mem := rfl
@[simp] theorem afterEngineRead_memBytes (n : Nat) : (afterEngineRead n s).memBytes = s.memBytes := rfl
@[simp] theorem afterEngineRead_script (n : Nat) : (afterEngineRead n s).script = s.script := rfl
@[simp] theorem afterEngineRead_replies (n : Nat) : (afterEngineRead n s).replies = s.replies := rfl
@[simp] theorem afterEngineRead_sched (n : Nat) : (afterEngineRead n s).sched = s.sched := rfl
@[simp] theorem afterEngineRead_sel (n : Nat) : (afterEngineRead n s).sel = s.sel := rfl
@[simp] theorem afterEngineRead_entScript (n : Nat) : (afterEngineRead n s).entScript = s.entScript := rfl
@[simp] theorem afterEngineRead_entAns (n : Nat) : (afterEngineRead n s).entAns = s.entAns := rfl
@[simp] theorem afterEngineRead_contested (n : Nat) : (afterEngineRead n s).contested = s.contested := rfl
@[simp] theorem afterEngineRead_free (n : Nat) : (afterEngineRead n s).free = if s.contested = [] then s.free else s.free + n := rfl
@[simp] theorem afterEngineRead_running (n : Nat) : (afterEngineRead n s).running = s.running := rfl
@[simp] theorem afterEngineRead_keyFlags (n : Nat) : (afterEngineRead n s).keyFlags = s.keyFlags := rfl
@[simp] theorem afterEngineRead_allIdle (n : Nat) : (afterEngineRead n s).allIdle = s.allIdle := rfl
@[simp] theorem afterEngineRead_selLane (n : Nat) : (afterEngineRead n s).selLane = s.selLane := rfl
@[simp] theorem afterEngineRead_tableOf (n : Nat) (d : Dir) : (afterEngineRead n s).tableOf d = s.tableOf d := by cases d <;> rfl

/-! ### engineWrite -/

@[simp] theorem engineWrite_cmd (a : Nat) (bs : List Byte) : (engineWrite a bs s).cmd = s.cmd := rfl
@[simp] theorem engineWrite_busy (a : Nat) (bs : List Byte) : (engineWrite a bs s).busy = s.busy := rfl
@[simp] theorem engineWrite_done (a : Nat) (bs : List Byte) : (engineWrite a bs s).done = s.done := rfl
@[simp] theorem engineWrite_err (a : Nat) (bs : List Byte) : (engineWrite a bs s).err = s.err := rfl
@[simp] theorem engineWrite_ecode (a : Nat) (bs : List Byte) : (engineWrite a bs s).ecode = s.ecode := rfl
@[simp] theorem engineWrite_lutV (a : Nat) (bs : List Byte) : (engineWrite a bs s).lutV = s.lutV := rfl
@[simp] theorem engineWrite_invV (a : Nat) (bs : List Byte) : (engineWrite a bs s).invV = s.invV := rfl
@[simp] theorem engineWrite_zd (a : Nat) (bs : List Byte) : (engineWrite a bs s).zd = s.zd := rfl
@[simp] theorem engineWrite_src (a : Nat) (bs : List Byte) : (engineWrite a bs s).src = s.src := rfl
@[simp] theorem engineWrite_dst (a : Nat) (bs : List Byte) : (engineWrite a bs s).dst = s.dst := rfl
@[simp] theorem engineWrite_len (a : Nat) (bs : List Byte) : (engineWrite a bs s).len = s.len := rfl
@[simp] theorem engineWrite_lut (a : Nat) (bs : List Byte) : (engineWrite a bs s).lut = s.lut := rfl
@[simp] theorem engineWrite_inv (a : Nat) (bs : List Byte) : (engineWrite a bs s).inv = s.inv := rfl
@[simp] theorem engineWrite_lanes (a : Nat) (bs : List Byte) : (engineWrite a bs s).lanes = s.lanes := rfl
@[simp] theorem engineWrite_pend (a : Nat) (bs : List Byte) : (engineWrite a bs s).pend = s.pend := rfl
@[simp] theorem engineWrite_mem (a : Nat) (bs : List Byte) : (engineWrite a bs s).mem = s.mem.writeBytes a bs := rfl
@[simp] theorem engineWrite_memBytes (a : Nat) (bs : List Byte) : (engineWrite a bs s).memBytes = s.memBytes := rfl
@[simp] theorem engineWrite_script (a : Nat) (bs : List Byte) : (engineWrite a bs s).script = s.script := rfl
@[simp] theorem engineWrite_replies (a : Nat) (bs : List Byte) : (engineWrite a bs s).replies = s.replies := rfl
@[simp] theorem engineWrite_sched (a : Nat) (bs : List Byte) : (engineWrite a bs s).sched = s.sched := rfl
@[simp] theorem engineWrite_sel (a : Nat) (bs : List Byte) : (engineWrite a bs s).sel = s.sel := rfl
@[simp] theorem engineWrite_entScript (a : Nat) (bs : List Byte) : (engineWrite a bs s).entScript = s.entScript := rfl
@[simp] theorem engineWrite_entAns (a : Nat) (bs : List Byte) : (engineWrite a bs s).entAns = s.entAns := rfl
@[simp] theorem engineWrite_contested (a : Nat) (bs : List Byte) : (engineWrite a bs s).contested = s.contested := rfl
@[simp] theorem engineWrite_free (a : Nat) (bs : List Byte) : (engineWrite a bs s).free = s.free := rfl
@[simp] theorem engineWrite_running (a : Nat) (bs : List Byte) : (engineWrite a bs s).running = s.running := rfl
@[simp] theorem engineWrite_keyFlags (a : Nat) (bs : List Byte) : (engineWrite a bs s).keyFlags = s.keyFlags := rfl
@[simp] theorem engineWrite_allIdle (a : Nat) (bs : List Byte) : (engineWrite a bs s).allIdle = s.allIdle := rfl
@[simp] theorem engineWrite_selLane (a : Nat) (bs : List Byte) : (engineWrite a bs s).selLane = s.selLane := rfl
@[simp] theorem engineWrite_tableOf (a : Nat) (bs : List Byte) (d : Dir) : (engineWrite a bs s).tableOf d = s.tableOf d := by cases d <;> rfl

/-! ### storeTable -/

@[simp] theorem storeTable_cmd (t : Table) : (storeTable t s).cmd = s.cmd := rfl
@[simp] theorem storeTable_busy (t : Table) : (storeTable t s).busy = s.busy := rfl
@[simp] theorem storeTable_done (t : Table) : (storeTable t s).done = s.done := rfl
@[simp] theorem storeTable_err (t : Table) : (storeTable t s).err = s.err := rfl
@[simp] theorem storeTable_ecode (t : Table) : (storeTable t s).ecode = s.ecode := rfl
@[simp] theorem storeTable_lutV (t : Table) : (storeTable t s).lutV = s.lutV := rfl
@[simp] theorem storeTable_invV (t : Table) : (storeTable t s).invV = s.invV := rfl
@[simp] theorem storeTable_zd (t : Table) : (storeTable t s).zd = s.zd := rfl
@[simp] theorem storeTable_src (t : Table) : (storeTable t s).src = s.src := rfl
@[simp] theorem storeTable_dst (t : Table) : (storeTable t s).dst = s.dst := rfl
@[simp] theorem storeTable_len (t : Table) : (storeTable t s).len = s.len := rfl
@[simp] theorem storeTable_lut (t : Table) : (storeTable t s).lut = s.lut := rfl
@[simp] theorem storeTable_inv (t : Table) : (storeTable t s).inv = s.inv := rfl
@[simp] theorem storeTable_lanes (t : Table) : (storeTable t s).lanes = s.lanes := rfl
@[simp] theorem storeTable_pend (t : Table) : (storeTable t s).pend = s.pend := rfl
@[simp] theorem storeTable_mem (t : Table) : (storeTable t s).mem = s.mem.writeBytes s.dst.toNat t.toList := rfl
@[simp] theorem storeTable_memBytes (t : Table) : (storeTable t s).memBytes = s.memBytes := rfl
@[simp] theorem storeTable_script (t : Table) : (storeTable t s).script = s.script := rfl
@[simp] theorem storeTable_replies (t : Table) : (storeTable t s).replies = s.replies := rfl
@[simp] theorem storeTable_sched (t : Table) : (storeTable t s).sched = s.sched := rfl
@[simp] theorem storeTable_sel (t : Table) : (storeTable t s).sel = s.sel := rfl
@[simp] theorem storeTable_entScript (t : Table) : (storeTable t s).entScript = s.entScript := rfl
@[simp] theorem storeTable_entAns (t : Table) : (storeTable t s).entAns = s.entAns := rfl
@[simp] theorem storeTable_contested (t : Table) : (storeTable t s).contested = s.contested := rfl
@[simp] theorem storeTable_free (t : Table) : (storeTable t s).free = s.free := rfl
@[simp] theorem storeTable_running (t : Table) : (storeTable t s).running = s.running := rfl
@[simp] theorem storeTable_keyFlags (t : Table) : (storeTable t s).keyFlags = s.keyFlags := rfl
@[simp] theorem storeTable_allIdle (t : Table) : (storeTable t s).allIdle = s.allIdle := rfl
@[simp] theorem storeTable_selLane (t : Table) : (storeTable t s).selLane = s.selLane := rfl
@[simp] theorem storeTable_tableOf (t : Table) (d : Dir) : (storeTable t s).tableOf d = s.tableOf d := by cases d <;> rfl

/-! ### reject -/

@[simp] theorem reject_cmd (e : ECode) : (reject e s).cmd = s.cmd := rfl
@[simp] theorem reject_busy (e : ECode) : (reject e s).busy = s.busy := rfl
@[simp] theorem reject_done (e : ECode) : (reject e s).done = false := rfl
@[simp] theorem reject_err (e : ECode) : (reject e s).err = true := rfl
@[simp] theorem reject_ecode (e : ECode) : (reject e s).ecode = e := rfl
@[simp] theorem reject_lutV (e : ECode) : (reject e s).lutV = s.lutV := rfl
@[simp] theorem reject_invV (e : ECode) : (reject e s).invV = s.invV := rfl
@[simp] theorem reject_zd (e : ECode) : (reject e s).zd = s.zd := rfl
@[simp] theorem reject_src (e : ECode) : (reject e s).src = s.src := rfl
@[simp] theorem reject_dst (e : ECode) : (reject e s).dst = s.dst := rfl
@[simp] theorem reject_len (e : ECode) : (reject e s).len = s.len := rfl
@[simp] theorem reject_lut (e : ECode) : (reject e s).lut = s.lut := rfl
@[simp] theorem reject_inv (e : ECode) : (reject e s).inv = s.inv := rfl
@[simp] theorem reject_lanes (e : ECode) : (reject e s).lanes = s.lanes := rfl
@[simp] theorem reject_pend (e : ECode) : (reject e s).pend = s.pend := rfl
@[simp] theorem reject_mem (e : ECode) : (reject e s).mem = s.mem := rfl
@[simp] theorem reject_memBytes (e : ECode) : (reject e s).memBytes = s.memBytes := rfl
@[simp] theorem reject_script (e : ECode) : (reject e s).script = s.script := rfl
@[simp] theorem reject_replies (e : ECode) : (reject e s).replies = s.replies := rfl
@[simp] theorem reject_sched (e : ECode) : (reject e s).sched = s.sched := rfl
@[simp] theorem reject_sel (e : ECode) : (reject e s).sel = s.sel := rfl
@[simp] theorem reject_entScript (e : ECode) : (reject e s).entScript = s.entScript := rfl
@[simp] theorem reject_entAns (e : ECode) : (reject e s).entAns = s.entAns := rfl
@[simp] theorem reject_contested (e : ECode) : (reject e s).contested = s.contested := rfl
@[simp] theorem reject_free (e : ECode) : (reject e s).free = s.free := rfl
@[simp] theorem reject_running (e : ECode) : (reject e s).running = s.running := rfl
@[simp] theorem reject_keyFlags (e : ECode) : (reject e s).keyFlags = s.keyFlags := rfl
@[simp] theorem reject_allIdle (e : ECode) : (reject e s).allIdle = s.allIdle := rfl
@[simp] theorem reject_selLane (e : ECode) : (reject e s).selLane = s.selLane := rfl
@[simp] theorem reject_tableOf (e : ECode) (d : Dir) : (reject e s).tableOf d = s.tableOf d := by cases d <;> rfl

/-! ### clearStatus -/

@[simp] theorem clearStatus_cmd : (clearStatus s).cmd = s.cmd := rfl
@[simp] theorem clearStatus_busy : (clearStatus s).busy = s.busy := rfl
@[simp] theorem clearStatus_done : (clearStatus s).done = false := rfl
@[simp] theorem clearStatus_err : (clearStatus s).err = false := rfl
@[simp] theorem clearStatus_ecode : (clearStatus s).ecode = .none := rfl
@[simp] theorem clearStatus_lutV : (clearStatus s).lutV = s.lutV := rfl
@[simp] theorem clearStatus_invV : (clearStatus s).invV = s.invV := rfl
@[simp] theorem clearStatus_zd : (clearStatus s).zd = s.zd := rfl
@[simp] theorem clearStatus_src : (clearStatus s).src = s.src := rfl
@[simp] theorem clearStatus_dst : (clearStatus s).dst = s.dst := rfl
@[simp] theorem clearStatus_len : (clearStatus s).len = s.len := rfl
@[simp] theorem clearStatus_lut : (clearStatus s).lut = s.lut := rfl
@[simp] theorem clearStatus_inv : (clearStatus s).inv = s.inv := rfl
@[simp] theorem clearStatus_lanes : (clearStatus s).lanes = s.lanes := rfl
@[simp] theorem clearStatus_pend : (clearStatus s).pend = s.pend := rfl
@[simp] theorem clearStatus_mem : (clearStatus s).mem = s.mem := rfl
@[simp] theorem clearStatus_memBytes : (clearStatus s).memBytes = s.memBytes := rfl
@[simp] theorem clearStatus_script : (clearStatus s).script = s.script := rfl
@[simp] theorem clearStatus_replies : (clearStatus s).replies = s.replies := rfl
@[simp] theorem clearStatus_sched : (clearStatus s).sched = s.sched := rfl
@[simp] theorem clearStatus_sel : (clearStatus s).sel = s.sel := rfl
@[simp] theorem clearStatus_entScript : (clearStatus s).entScript = s.entScript := rfl
@[simp] theorem clearStatus_entAns : (clearStatus s).entAns = s.entAns := rfl
@[simp] theorem clearStatus_contested : (clearStatus s).contested = s.contested := rfl
@[simp] theorem clearStatus_free : (clearStatus s).free = s.free := rfl
@[simp] theorem clearStatus_running : (clearStatus s).running = s.running := rfl
@[simp] theorem clearStatus_keyFlags : (clearStatus s).keyFlags = s.keyFlags := rfl
@[simp] theorem clearStatus_allIdle : (clearStatus s).allIdle = s.allIdle := rfl
@[simp] theorem clearStatus_selLane : (clearStatus s).selLane = s.selLane := rfl
@[simp] theorem clearStatus_tableOf (d : Dir) : (clearStatus s).tableOf d = s.tableOf d := by cases d <;> rfl

/-! ### stopLanes -/

@[simp] theorem stopLanes_cmd : (stopLanes s).cmd = s.cmd := rfl
@[simp] theorem stopLanes_busy : (stopLanes s).busy = s.busy := rfl
@[simp] theorem stopLanes_done : (stopLanes s).done = s.done := rfl
@[simp] theorem stopLanes_err : (stopLanes s).err = s.err := rfl
@[simp] theorem stopLanes_ecode : (stopLanes s).ecode = s.ecode := rfl
@[simp] theorem stopLanes_lutV : (stopLanes s).lutV = s.lutV := rfl
@[simp] theorem stopLanes_invV : (stopLanes s).invV = s.invV := rfl
@[simp] theorem stopLanes_zd : (stopLanes s).zd = s.zd := rfl
@[simp] theorem stopLanes_src : (stopLanes s).src = s.src := rfl
@[simp] theorem stopLanes_dst : (stopLanes s).dst = s.dst := rfl
@[simp] theorem stopLanes_len : (stopLanes s).len = s.len := rfl
@[simp] theorem stopLanes_lut : (stopLanes s).lut = s.lut := rfl
@[simp] theorem stopLanes_inv : (stopLanes s).inv = s.inv := rfl
@[simp] theorem stopLanes_lanes : (stopLanes s).lanes = List.replicate s.lanes.length .idle := rfl
@[simp] theorem stopLanes_pend : (stopLanes s).pend = [] := rfl
@[simp] theorem stopLanes_mem : (stopLanes s).mem = s.mem := rfl
@[simp] theorem stopLanes_memBytes : (stopLanes s).memBytes = s.memBytes := rfl
@[simp] theorem stopLanes_script : (stopLanes s).script = s.script := rfl
@[simp] theorem stopLanes_replies : (stopLanes s).replies = s.replies := rfl
@[simp] theorem stopLanes_sched : (stopLanes s).sched = s.sched := rfl
@[simp] theorem stopLanes_sel : (stopLanes s).sel = s.sel := rfl
@[simp] theorem stopLanes_entScript : (stopLanes s).entScript = s.entScript := rfl
@[simp] theorem stopLanes_entAns : (stopLanes s).entAns = s.entAns := rfl
@[simp] theorem stopLanes_contested : (stopLanes s).contested = s.contested := rfl
@[simp] theorem stopLanes_free : (stopLanes s).free = s.free := rfl
@[simp] theorem stopLanes_running : (stopLanes s).running = s.running := rfl
@[simp] theorem stopLanes_keyFlags : (stopLanes s).keyFlags = s.keyFlags := rfl
@[simp] theorem stopLanes_tableOf (d : Dir) : (stopLanes s).tableOf d = s.tableOf d := by cases d <;> rfl

/-! ### endCommand -/

@[simp] theorem endCommand_cmd : (endCommand s).cmd = s.cmd := rfl
@[simp] theorem endCommand_busy : (endCommand s).busy = false := rfl
@[simp] theorem endCommand_done : (endCommand s).done = s.done := rfl
@[simp] theorem endCommand_err : (endCommand s).err = s.err := rfl
@[simp] theorem endCommand_ecode : (endCommand s).ecode = s.ecode := rfl
@[simp] theorem endCommand_lutV : (endCommand s).lutV = s.lutV := rfl
@[simp] theorem endCommand_invV : (endCommand s).invV = s.invV := rfl
@[simp] theorem endCommand_zd : (endCommand s).zd = s.zd := rfl
@[simp] theorem endCommand_src : (endCommand s).src = s.src := rfl
@[simp] theorem endCommand_dst : (endCommand s).dst = s.dst := rfl
@[simp] theorem endCommand_len : (endCommand s).len = s.len := rfl
@[simp] theorem endCommand_lut : (endCommand s).lut = s.lut := rfl
@[simp] theorem endCommand_inv : (endCommand s).inv = s.inv := rfl
@[simp] theorem endCommand_lanes : (endCommand s).lanes = s.lanes := rfl
@[simp] theorem endCommand_pend : (endCommand s).pend = s.pend := rfl
@[simp] theorem endCommand_mem : (endCommand s).mem = settleBytes s.free s.contested s.mem := rfl
@[simp] theorem endCommand_memBytes : (endCommand s).memBytes = s.memBytes := rfl
@[simp] theorem endCommand_script : (endCommand s).script = s.script := rfl
@[simp] theorem endCommand_replies : (endCommand s).replies = s.replies := rfl
@[simp] theorem endCommand_sched : (endCommand s).sched = s.sched := rfl
@[simp] theorem endCommand_sel : (endCommand s).sel = s.sel := rfl
@[simp] theorem endCommand_entScript : (endCommand s).entScript = s.entScript := rfl
@[simp] theorem endCommand_entAns : (endCommand s).entAns = none := rfl
@[simp] theorem endCommand_contested : (endCommand s).contested = [] := rfl
@[simp] theorem endCommand_free : (endCommand s).free = s.free + s.contested.length := rfl
@[simp] theorem endCommand_running : (endCommand s).running = s.running := rfl
@[simp] theorem endCommand_keyFlags : (endCommand s).keyFlags = s.keyFlags := rfl
@[simp] theorem endCommand_allIdle : (endCommand s).allIdle = s.allIdle := rfl
@[simp] theorem endCommand_selLane : (endCommand s).selLane = s.selLane := rfl
@[simp] theorem endCommand_tableOf (d : Dir) : (endCommand s).tableOf d = s.tableOf d := by cases d <;> rfl

/-! ### runError -/

@[simp] theorem runError_cmd (e : ECode) : (runError e s).cmd = s.cmd := rfl
@[simp] theorem runError_busy (e : ECode) : (runError e s).busy = false := rfl
@[simp] theorem runError_done (e : ECode) : (runError e s).done = false := rfl
@[simp] theorem runError_err (e : ECode) : (runError e s).err = true := rfl
@[simp] theorem runError_ecode (e : ECode) : (runError e s).ecode = e := rfl
@[simp] theorem runError_lutV (e : ECode) : (runError e s).lutV = s.lutV := rfl
@[simp] theorem runError_invV (e : ECode) : (runError e s).invV = s.invV := rfl
@[simp] theorem runError_zd (e : ECode) : (runError e s).zd = s.zd := rfl
@[simp] theorem runError_src (e : ECode) : (runError e s).src = s.src := rfl
@[simp] theorem runError_dst (e : ECode) : (runError e s).dst = s.dst := rfl
@[simp] theorem runError_len (e : ECode) : (runError e s).len = s.len := rfl
@[simp] theorem runError_lut (e : ECode) : (runError e s).lut = s.lut := rfl
@[simp] theorem runError_inv (e : ECode) : (runError e s).inv = s.inv := rfl
@[simp] theorem runError_lanes (e : ECode) : (runError e s).lanes = s.lanes := rfl
@[simp] theorem runError_pend (e : ECode) : (runError e s).pend = s.pend := rfl
@[simp] theorem runError_mem (e : ECode) : (runError e s).mem = settleBytes s.free s.contested s.mem := rfl
@[simp] theorem runError_memBytes (e : ECode) : (runError e s).memBytes = s.memBytes := rfl
@[simp] theorem runError_script (e : ECode) : (runError e s).script = s.script := rfl
@[simp] theorem runError_replies (e : ECode) : (runError e s).replies = s.replies := rfl
@[simp] theorem runError_sched (e : ECode) : (runError e s).sched = s.sched := rfl
@[simp] theorem runError_sel (e : ECode) : (runError e s).sel = s.sel := rfl
@[simp] theorem runError_entScript (e : ECode) : (runError e s).entScript = s.entScript := rfl
@[simp] theorem runError_entAns (e : ECode) : (runError e s).entAns = none := rfl
@[simp] theorem runError_contested (e : ECode) : (runError e s).contested = [] := rfl
@[simp] theorem runError_free (e : ECode) : (runError e s).free = s.free + s.contested.length := rfl
@[simp] theorem runError_running (e : ECode) : (runError e s).running = s.running := rfl
@[simp] theorem runError_keyFlags (e : ECode) : (runError e s).keyFlags = s.keyFlags := rfl
@[simp] theorem runError_allIdle (e : ECode) : (runError e s).allIdle = s.allIdle := rfl
@[simp] theorem runError_selLane (e : ECode) : (runError e s).selLane = s.selLane := rfl
@[simp] theorem runError_tableOf (e : ECode) (d : Dir) : (runError e s).tableOf d = s.tableOf d := by cases d <;> rfl

/-! ### complete -/

@[simp] theorem complete_cmd (i : Instr) : (complete i s).cmd = s.cmd := rfl
@[simp] theorem complete_busy (i : Instr) : (complete i s).busy = false := rfl
@[simp] theorem complete_done (i : Instr) : (complete i s).done = true := rfl
@[simp] theorem complete_err (i : Instr) : (complete i s).err = s.err := rfl
@[simp] theorem complete_ecode (i : Instr) : (complete i s).ecode = s.ecode := rfl
@[simp] theorem complete_lutV (i : Instr) : (complete i s).lutV = (okFlags i s.keyFlags).lutV := rfl
@[simp] theorem complete_invV (i : Instr) : (complete i s).invV = (okFlags i s.keyFlags).invV := rfl
@[simp] theorem complete_zd (i : Instr) : (complete i s).zd = (okFlags i s.keyFlags).zd := rfl
@[simp] theorem complete_src (i : Instr) : (complete i s).src = s.src := rfl
@[simp] theorem complete_dst (i : Instr) : (complete i s).dst = s.dst := rfl
@[simp] theorem complete_len (i : Instr) : (complete i s).len = s.len := rfl
@[simp] theorem complete_lut (i : Instr) : (complete i s).lut = s.lut := rfl
@[simp] theorem complete_inv (i : Instr) : (complete i s).inv = s.inv := rfl
@[simp] theorem complete_lanes (i : Instr) : (complete i s).lanes = s.lanes := rfl
@[simp] theorem complete_pend (i : Instr) : (complete i s).pend = s.pend := rfl
@[simp] theorem complete_mem (i : Instr) : (complete i s).mem = settleBytes s.free s.contested s.mem := rfl
@[simp] theorem complete_memBytes (i : Instr) : (complete i s).memBytes = s.memBytes := rfl
@[simp] theorem complete_script (i : Instr) : (complete i s).script = s.script := rfl
@[simp] theorem complete_replies (i : Instr) : (complete i s).replies = s.replies := rfl
@[simp] theorem complete_sched (i : Instr) : (complete i s).sched = s.sched := rfl
@[simp] theorem complete_sel (i : Instr) : (complete i s).sel = s.sel := rfl
@[simp] theorem complete_entScript (i : Instr) : (complete i s).entScript = s.entScript := rfl
@[simp] theorem complete_entAns (i : Instr) : (complete i s).entAns = none := rfl
@[simp] theorem complete_contested (i : Instr) : (complete i s).contested = [] := rfl
@[simp] theorem complete_free (i : Instr) : (complete i s).free = s.free + s.contested.length := rfl
@[simp] theorem complete_running (i : Instr) : (complete i s).running = s.running := rfl
@[simp] theorem complete_allIdle (i : Instr) : (complete i s).allIdle = s.allIdle := rfl
@[simp] theorem complete_selLane (i : Instr) : (complete i s).selLane = s.selLane := rfl
@[simp] theorem complete_tableOf (i : Instr) (d : Dir) : (complete i s).tableOf d = s.tableOf d := by cases d <;> rfl

/-! ### accept -/

@[simp] theorem accept_cmd (i : Instr) : (accept i s).cmd = cmdWord i := rfl
@[simp] theorem accept_busy (i : Instr) : (accept i s).busy = true := rfl
@[simp] theorem accept_done (i : Instr) : (accept i s).done = false := rfl
@[simp] theorem accept_err (i : Instr) : (accept i s).err = false := rfl
@[simp] theorem accept_ecode (i : Instr) : (accept i s).ecode = .none := rfl
@[simp] theorem accept_lutV (i : Instr) : (accept i s).lutV = (accFlags i s.keyFlags).lutV := rfl
@[simp] theorem accept_invV (i : Instr) : (accept i s).invV = (accFlags i s.keyFlags).invV := rfl
@[simp] theorem accept_zd (i : Instr) : (accept i s).zd = (accFlags i s.keyFlags).zd := rfl
@[simp] theorem accept_src (i : Instr) : (accept i s).src = s.src := rfl
@[simp] theorem accept_dst (i : Instr) : (accept i s).dst = s.dst := rfl
@[simp] theorem accept_len (i : Instr) : (accept i s).len = s.len := rfl
@[simp] theorem accept_lut (i : Instr) : (accept i s).lut = s.lut := rfl
@[simp] theorem accept_inv (i : Instr) : (accept i s).inv = s.inv := rfl
@[simp] theorem accept_lanes (i : Instr) : (accept i s).lanes = s.lanes := rfl
@[simp] theorem accept_pend (i : Instr) : (accept i s).pend = List.range (blockCount i s.len) := rfl
@[simp] theorem accept_mem (i : Instr) : (accept i s).mem = s.mem := rfl
@[simp] theorem accept_memBytes (i : Instr) : (accept i s).memBytes = s.memBytes := rfl
@[simp] theorem accept_script (i : Instr) : (accept i s).script = s.script := rfl
@[simp] theorem accept_replies (i : Instr) : (accept i s).replies = s.replies := rfl
@[simp] theorem accept_sched (i : Instr) : (accept i s).sched = s.sched := rfl
@[simp] theorem accept_sel (i : Instr) : (accept i s).sel = s.sel := rfl
@[simp] theorem accept_entScript (i : Instr) : (accept i s).entScript = s.entScript := rfl
@[simp] theorem accept_entAns (i : Instr) : (accept i s).entAns = none := rfl
@[simp] theorem accept_contested (i : Instr) : (accept i s).contested = s.contested := rfl
@[simp] theorem accept_free (i : Instr) : (accept i s).free = s.free := rfl
@[simp] theorem accept_allIdle (i : Instr) : (accept i s).allIdle = s.allIdle := rfl
@[simp] theorem accept_selLane (i : Instr) : (accept i s).selLane = s.selLane := rfl
@[simp] theorem accept_tableOf (i : Instr) (d : Dir) : (accept i s).tableOf d = s.tableOf d := by cases d <;> rfl

/-! ### reply -/

@[simp] theorem reply_cmd (r : Reply) : (reply r s).cmd = s.cmd := rfl
@[simp] theorem reply_busy (r : Reply) : (reply r s).busy = s.busy := rfl
@[simp] theorem reply_done (r : Reply) : (reply r s).done = s.done := rfl
@[simp] theorem reply_err (r : Reply) : (reply r s).err = s.err := rfl
@[simp] theorem reply_ecode (r : Reply) : (reply r s).ecode = s.ecode := rfl
@[simp] theorem reply_lutV (r : Reply) : (reply r s).lutV = s.lutV := rfl
@[simp] theorem reply_invV (r : Reply) : (reply r s).invV = s.invV := rfl
@[simp] theorem reply_zd (r : Reply) : (reply r s).zd = s.zd := rfl
@[simp] theorem reply_src (r : Reply) : (reply r s).src = s.src := rfl
@[simp] theorem reply_dst (r : Reply) : (reply r s).dst = s.dst := rfl
@[simp] theorem reply_len (r : Reply) : (reply r s).len = s.len := rfl
@[simp] theorem reply_lut (r : Reply) : (reply r s).lut = s.lut := rfl
@[simp] theorem reply_inv (r : Reply) : (reply r s).inv = s.inv := rfl
@[simp] theorem reply_lanes (r : Reply) : (reply r s).lanes = s.lanes := rfl
@[simp] theorem reply_pend (r : Reply) : (reply r s).pend = s.pend := rfl
@[simp] theorem reply_mem (r : Reply) : (reply r s).mem = s.mem := rfl
@[simp] theorem reply_memBytes (r : Reply) : (reply r s).memBytes = s.memBytes := rfl
@[simp] theorem reply_script (r : Reply) : (reply r s).script = s.script := rfl
@[simp] theorem reply_replies (r : Reply) : (reply r s).replies = r :: s.replies := rfl
@[simp] theorem reply_sched (r : Reply) : (reply r s).sched = s.sched := rfl
@[simp] theorem reply_sel (r : Reply) : (reply r s).sel = s.sel := rfl
@[simp] theorem reply_entScript (r : Reply) : (reply r s).entScript = s.entScript := rfl
@[simp] theorem reply_entAns (r : Reply) : (reply r s).entAns = s.entAns := rfl
@[simp] theorem reply_contested (r : Reply) : (reply r s).contested = s.contested := rfl
@[simp] theorem reply_free (r : Reply) : (reply r s).free = s.free := rfl
@[simp] theorem reply_running (r : Reply) : (reply r s).running = s.running := rfl
@[simp] theorem reply_keyFlags (r : Reply) : (reply r s).keyFlags = s.keyFlags := rfl
@[simp] theorem reply_allIdle (r : Reply) : (reply r s).allIdle = s.allIdle := rfl
@[simp] theorem reply_selLane (r : Reply) : (reply r s).selLane = s.selLane := rfl
@[simp] theorem reply_tableOf (r : Reply) (d : Dir) : (reply r s).tableOf d = s.tableOf d := by cases d <;> rfl

/-! ### popTurn -/

@[simp] theorem popTurn_cmd : (s.popTurn).cmd = s.cmd := rfl
@[simp] theorem popTurn_busy : (s.popTurn).busy = s.busy := rfl
@[simp] theorem popTurn_done : (s.popTurn).done = s.done := rfl
@[simp] theorem popTurn_err : (s.popTurn).err = s.err := rfl
@[simp] theorem popTurn_ecode : (s.popTurn).ecode = s.ecode := rfl
@[simp] theorem popTurn_lutV : (s.popTurn).lutV = s.lutV := rfl
@[simp] theorem popTurn_invV : (s.popTurn).invV = s.invV := rfl
@[simp] theorem popTurn_zd : (s.popTurn).zd = s.zd := rfl
@[simp] theorem popTurn_src : (s.popTurn).src = s.src := rfl
@[simp] theorem popTurn_dst : (s.popTurn).dst = s.dst := rfl
@[simp] theorem popTurn_len : (s.popTurn).len = s.len := rfl
@[simp] theorem popTurn_lut : (s.popTurn).lut = s.lut := rfl
@[simp] theorem popTurn_inv : (s.popTurn).inv = s.inv := rfl
@[simp] theorem popTurn_lanes : (s.popTurn).lanes = s.lanes := rfl
@[simp] theorem popTurn_pend : (s.popTurn).pend = s.pend := rfl
@[simp] theorem popTurn_mem : (s.popTurn).mem = s.mem := rfl
@[simp] theorem popTurn_memBytes : (s.popTurn).memBytes = s.memBytes := rfl
@[simp] theorem popTurn_script : (s.popTurn).script = s.script := rfl
@[simp] theorem popTurn_replies : (s.popTurn).replies = s.replies := rfl
@[simp] theorem popTurn_sched : (s.popTurn).sched = s.sched.tail := rfl
@[simp] theorem popTurn_sel : (s.popTurn).sel = s.sel := rfl
@[simp] theorem popTurn_entScript : (s.popTurn).entScript = s.entScript := rfl
@[simp] theorem popTurn_entAns : (s.popTurn).entAns = s.entAns := rfl
@[simp] theorem popTurn_contested : (s.popTurn).contested = s.contested := rfl
@[simp] theorem popTurn_free : (s.popTurn).free = s.free := rfl
@[simp] theorem popTurn_running : (s.popTurn).running = s.running := rfl
@[simp] theorem popTurn_keyFlags : (s.popTurn).keyFlags = s.keyFlags := rfl
@[simp] theorem popTurn_allIdle : (s.popTurn).allIdle = s.allIdle := rfl
@[simp] theorem popTurn_selLane : (s.popTurn).selLane = s.selLane := rfl
@[simp] theorem popTurn_tableOf (d : Dir) : (s.popTurn).tableOf d = s.tableOf d := by cases d <;> rfl

@[simp] theorem setKeyFlags_keyFlags (f : KeyFlags) : (s.setKeyFlags f).keyFlags = f := rfl
@[simp] theorem complete_keyFlags (i : Instr) : (complete i s).keyFlags = okFlags i s.keyFlags := rfl
@[simp] theorem accept_keyFlags (i : Instr) : (accept i s).keyFlags = accFlags i s.keyFlags := rfl

end Sys2Proof.Machine
end

