-- ==== Sys2Proof/Laws/Memory.lean ====
section
/-! SUPPORT. MEM: reads after writes, the canonical form, and that equal reads make equal memories. -/

namespace Sys2Proof.Machine

/-- The canonical form, as a proposition. -/
theorem memory_wf_iff (m : Memory) :
    m.wf = true ↔ m.Pairwise (fun x y => x.1 < y.1) ∧ ∀ c ∈ m, c.2 ≠ Config.unlistedByte := by
  simp [Memory.wf, List.all_eq_true]

@[simp] theorem memory_wf_nil : Memory.wf [] = true := rfl

theorem memory_wf_cons (x : Nat) (c : Byte) (m : Memory) :
    Memory.wf ((x, c) :: m) = true ↔
      (∀ y ∈ m, x < y.1) ∧ c ≠ Config.unlistedByte ∧ Memory.wf m = true := by
  simp only [memory_wf_iff, List.pairwise_cons, List.mem_cons, forall_eq_or_imp]
  tauto

@[simp] theorem memory_read_nil (a : Nat) : Memory.read [] a = Config.unlistedByte := rfl

/-- An address below every listed one reads as unlisted. -/
theorem memory_read_of_lt (m : Memory) (a : Nat) (h : ∀ y ∈ m, a < y.1) : m.read a = Config.unlistedByte := by
  induction m with
  | nil => rfl
  | cons y m ih =>
    have hy := h y (by simp)
    have : y.1 ≠ a := by omega
    simp [Memory.read, this, ih fun z hz => h z (by simp [hz])]

/-- The addresses a write lists: the old ones and its own. -/
theorem memory_mem_write {m : Memory} {a : Nat} {b : Byte} {c : Host.Cell} (h : c ∈ m.write a b) :
    c = (a, b) ∨ c ∈ m := by
  induction m with
  | nil => simp only [Memory.write] at h; split at h <;> simp_all
  | cons y m ih =>
    obtain ⟨x, d⟩ := y
    simp only [Memory.write] at h
    split at h
    · split at h <;> simp_all
    · split at h
      · split at h
        · exact .inr (by simp [h])
        · rcases List.mem_cons.1 h with h | h <;> simp [h]
      · rcases List.mem_cons.1 h with rfl | h
        · simp
        · rcases ih h with h | h <;> simp [h]

/-- A write keeps the canonical form. -/
theorem memory_write_wf (m : Memory) (a : Nat) (b : Byte) (h : m.wf = true) : (m.write a b).wf = true := by
  induction m with
  | nil => simp only [Memory.write]; split <;> simp_all [memory_wf_cons]
  | cons y m ih =>
    obtain ⟨x, d⟩ := y
    obtain ⟨hx, hd, hm⟩ := (memory_wf_cons x d m).1 h
    simp only [Memory.write]
    split
    · rename_i hax
      split
      · exact h
      · refine (memory_wf_cons ..).2 ⟨?_, by assumption, h⟩
        rintro z hz
        rcases List.mem_cons.1 hz with rfl | hz
        · exact hax
        · exact hax.trans (hx z hz)
    · split
      · split
        · exact hm
        · exact (memory_wf_cons ..).2 ⟨by rintro z hz; have := hx z hz; omega, by assumption, hm⟩
      · refine (memory_wf_cons ..).2 ⟨?_, hd, ih hm⟩
        rintro z hz
        rcases memory_mem_write hz with rfl | hz
        · show x < a
          omega
        · exact hx z hz

/-- A write is read back, and every other address reads as before. -/
theorem memory_read_write (m : Memory) (a : Nat) (b : Byte) (x : Nat) (h : m.wf = true) :
    (m.write a b).read x = if x = a then b else m.read x := by
  induction m with
  | nil =>
    simp only [Memory.write]
    by_cases hb : b = Config.unlistedByte <;> by_cases hx : x = a <;> simp_all [Memory.read, eq_comm]
  | cons y m ih =>
    obtain ⟨z, d⟩ := y
    obtain ⟨hz, hd, hm⟩ := (memory_wf_cons z d m).1 h
    simp only [Memory.write]
    split
    · rename_i haz
      have hra : Memory.read ((z, d) :: m) a = Config.unlistedByte :=
        memory_read_of_lt _ _ (by
          rintro w hw
          rcases List.mem_cons.1 hw with rfl | hw
          · exact haz
          · exact haz.trans (hz w hw))
      by_cases hb : b = Config.unlistedByte
      · by_cases hx : x = a
        · simp [hb, hx, hra]
        · simp [hb, hx]
      · by_cases hx : x = a
        · simp [hb, hx, Memory.read]
        · simp [hb, hx, Memory.read, Ne.symm hx]
    · split
      · rename_i haz
        subst haz
        have hra : Memory.read m a = Config.unlistedByte := memory_read_of_lt _ _ hz
        by_cases hb : b = Config.unlistedByte <;> by_cases hx : x = a
        · simp [hb, hx, hra]
        · simp [hb, hx, Memory.read, Ne.symm hx]
        · simp [hb, hx, Memory.read]
        · simp [hb, hx, Memory.read, Ne.symm hx]
      · rename_i h1 h2
        simp only [Memory.read, ih hm]
        by_cases hx : x = a
        · subst hx
          simp [show z ≠ x by omega]
        · simp [hx]

theorem memory_read_write_same (m : Memory) (a : Nat) (b : Byte) (h : m.wf = true) : (m.write a b).read a = b := by
  simp [memory_read_write m a b a h]

theorem memory_read_write_other (m : Memory) (a : Nat) (b : Byte) (x : Nat) (h : m.wf = true) (hx : x ≠ a) :
    (m.write a b).read x = m.read x := by
  simp [memory_read_write m a b x h, hx]

/-- MemWrite keeps the canonical form. -/
theorem memory_writeBytes_wf (bs : List Byte) (m : Memory) (a : Nat) (h : m.wf = true) :
    (m.writeBytes a bs).wf = true := by
  induction bs generalizing m a with
  | nil => exact h
  | cons b bs ih => exact ih _ _ (memory_write_wf m a b h)

/-- MemWrite (R62): the bytes written are read back, every other address reads as before. -/
theorem memory_read_writeBytes (bs : List Byte) (m : Memory) (a x : Nat) (h : m.wf = true) :
    (m.writeBytes a bs).read x = if a ≤ x ∧ x < a + bs.length then bs.getD (x - a) 0 else m.read x := by
  induction bs generalizing m a with
  | nil =>
    simp [Memory.writeBytes]
  | cons b bs ih =>
    simp only [Memory.writeBytes, ih _ _ (memory_write_wf m a b h), memory_read_write m a b x h, List.length_cons]
    by_cases hx : x = a
    · subst hx
      simp
    · by_cases h1 : a + 1 ≤ x ∧ x < a + 1 + bs.length
      · have h2 : a ≤ x ∧ x < a + (bs.length + 1) := by omega
        obtain ⟨k, hk⟩ : ∃ k, x - a = k + 1 := ⟨x - a - 1, by omega⟩
        have hk' : x - (a + 1) = k := by omega
        simp [h1, h2, hk, hk']
      · rw [if_neg h1, if_neg hx, if_neg (by omega)]

/-- The end of a command keeps the canonical form. -/
theorem settleBytes_wf (l : List Nat) (free : Nat) (m : Memory) (h : m.wf = true) :
    (settleBytes free l m).wf = true := by
  induction l generalizing free m with
  | nil => exact h
  | cons a l ih => exact ih _ _ (memory_write_wf m a _ h)

/-- A byte that is not contested is not settled. -/
theorem settleBytes_read (l : List Nat) (free : Nat) (m : Memory) (h : m.wf = true) (x : Nat) (hx : x ∉ l) :
    (settleBytes free l m).read x = m.read x := by
  induction l generalizing free m with
  | nil => rfl
  | cons a l ih =>
    simp only [List.mem_cons, not_or] at hx
    rw [settleBytes, ih _ _ (memory_write_wf m a _ h) hx.2, memory_read_write_other m a _ x h hx.1]

@[simp] theorem settleBytes_nil (free : Nat) (m : Memory) : settleBytes free [] m = m := rfl

/-- With no contested byte the end of a command changes nothing more. -/
theorem settle_of_calm (s : State) (h : s.contested = []) : settle s = s := by
  cases s
  simp_all [settle]

/-- The lists of a memory stay below MEM_BYTES under writes below it. -/
theorem memory_write_below (m : Memory) (a : Nat) (b : Byte) (n : Nat) (h : m.below n = true) (ha : a < n) :
    (m.write a b).below n = true := by
  simp only [Memory.below, List.all_eq_true, decide_eq_true_eq] at *
  intro c hc
  rcases memory_mem_write hc with rfl | hc
  · exact ha
  · exact h c hc

/-- Two canonical memories that read alike are equal. -/
theorem memory_ext {m n : Memory} (hm : m.wf = true) (hn : n.wf = true) (h : ∀ a, m.read a = n.read a) : m = n := by
  induction m generalizing n with
  | nil =>
    cases n with
    | nil => rfl
    | cons y n =>
      obtain ⟨z, d⟩ := y
      have := h z
      simp only [Memory.read, if_true] at this
      exact absurd this.symm ((memory_wf_cons z d n).1 hn).2.1
  | cons y m ih =>
    obtain ⟨x, c⟩ := y
    obtain ⟨hx, hc, hm'⟩ := (memory_wf_cons x c m).1 hm
    cases n with
    | nil =>
      have := h x
      simp only [Memory.read, if_true] at this
      exact absurd this hc
    | cons w n =>
      obtain ⟨z, d⟩ := w
      obtain ⟨hz, hd, hn'⟩ := (memory_wf_cons z d n).1 hn
      have hxz : x = z := by
        rcases Nat.lt_trichotomy x z with hlt | heq | hgt
        · have h1 := h x
          rw [memory_read_of_lt ((z, d) :: n) x (by
            rintro v hv
            rcases List.mem_cons.1 hv with rfl | hv
            · exact hlt
            · exact hlt.trans (hz v hv))] at h1
          simp only [Memory.read, if_true] at h1
          exact absurd h1 hc
        · exact heq
        · have h1 := h z
          rw [memory_read_of_lt ((x, c) :: m) z (by
            rintro v hv
            rcases List.mem_cons.1 hv with rfl | hv
            · exact hgt
            · exact hgt.trans (hx v hv))] at h1
          simp only [Memory.read, if_true] at h1
          exact absurd h1.symm hd
      subst hxz
      have hcd : c = d := by
        have := h x
        simpa only [Memory.read, if_true] using this
      subst hcd
      refine congrArg _ (ih hm' hn' fun a => ?_)
      have ha := h a
      simp only [Memory.read] at ha
      by_cases hxa : x = a
      · subst hxa
        rw [memory_read_of_lt m x hx, memory_read_of_lt n x hz]
      · simpa only [hxa, if_false] using ha

end Sys2Proof.Machine
end

