-- ==== Sys2Proof/Laws/Ops.lean ====
section
/-! SUPPORT. What each shared operation can do, once: the cases of issue, of a command's two moments, of dispatch, of
ENT's turn, of abort and of one step. -/

namespace Sys2Proof.Machine

/-! ### Issue -/

/-- The outcomes of the checks, in the order of R252, each with what the earlier ones found. -/
theorem issueError_cases (p : Profile) (s : State) :
    (lengthBad p s ∧ issueError p s = some .invalidLength) ∨
    (¬ lengthBad p s ∧ keyMissing p s ∧ issueError p s = some .notKeyed) ∨
    (¬ lengthBad p s ∧ ¬ keyMissing p s ∧ addressBad p s ∧ issueError p s = some .badAddress) ∨
    (¬ lengthBad p s ∧ ¬ keyMissing p s ∧ ¬ addressBad p s ∧ aliasBad p s ∧ issueError p s = some .badAlias) ∨
    (¬ lengthBad p s ∧ ¬ keyMissing p s ∧ ¬ addressBad p s ∧ ¬ aliasBad p s ∧ issueError p s = none) := by
  unfold issueError
  by_cases h1 : lengthBad p s
  · exact .inl ⟨h1, if_pos h1⟩
  by_cases h2 : keyMissing p s
  · exact .inr (.inl ⟨h1, h2, by rw [if_neg h1, if_pos h2]⟩)
  by_cases h3 : addressBad p s
  · exact .inr (.inr (.inl ⟨h1, h2, h3, by rw [if_neg h1, if_neg h2, if_pos h3]⟩))
  by_cases h4 : aliasBad p s
  · exact .inr (.inr (.inr (.inl ⟨h1, h2, h3, h4, by rw [if_neg h1, if_neg h2, if_neg h3, if_pos h4]⟩)))
  · exact .inr (.inr (.inr (.inr ⟨h1, h2, h3, h4, by rw [if_neg h1, if_neg h2, if_neg h3, if_neg h4]⟩)))

/-- The checks pass exactly when none fails. -/
theorem issueError_eq_none_iff (p : Profile) (s : State) :
    issueError p s = none ↔ ¬ lengthBad p s ∧ ¬ keyMissing p s ∧ ¬ addressBad p s ∧ ¬ aliasBad p s := by
  rcases issueError_cases p s with ⟨h, e⟩ | ⟨_, h, e⟩ | ⟨_, _, h, e⟩ | ⟨_, _, _, h, e⟩ | ⟨h1, h2, h3, h4, _⟩
  · exact ⟨fun he => (nomatch e.symm.trans he), fun g => absurd h g.1⟩
  · exact ⟨fun he => (nomatch e.symm.trans he), fun g => absurd h g.2.1⟩
  · exact ⟨fun he => (nomatch e.symm.trans he), fun g => absurd h g.2.2.1⟩
  · exact ⟨fun he => (nomatch e.symm.trans he), fun g => absurd h g.2.2.2⟩
  · exact ⟨fun _ => ⟨h1, h2, h3, h4⟩, fun _ => by assumption⟩

/-- The issue of a command rejects it with the first failing check, or accepts it. -/
theorem issue_cases (i : Instr) (s : State) :
    (profileOf i = none ∧ issue i s = s) ∨
    (∃ p e, profileOf i = some p ∧ issueError p s = some e ∧ issue i s = reject e s) ∨
    (∃ p, profileOf i = some p ∧ issueError p s = none ∧ issue i s = accept i s) := by
  unfold issue
  cases hp : profileOf i with
  | none => exact .inl ⟨rfl, rfl⟩
  | some p =>
    cases he : issueError p s with
    | some e => exact .inr (.inl ⟨p, e, rfl, he, by simp [he]⟩)
    | none => exact .inr (.inr ⟨p, rfl, he, by simp [he]⟩)

theorem issue_of_accepted {i : Instr} {p : Profile} {s : State} (hp : profileOf i = some p)
    (he : issueError p s = none) : issue i s = accept i s := by
  simp [issue, hp, he]

theorem issue_of_rejected {i : Instr} {p : Profile} {s : State} {e : ECode} (hp : profileOf i = some p)
    (he : issueError p s = some e) : issue i s = reject e s := by
  simp [issue, hp, he]

/-- The command words of R92 decode to their commands. -/
theorem decode_cmdWord (i : Instr) (p : Profile) (h : profileOf i = some p) : decode (.cmdw (cmdWord i)) = .ok i := by
  cases i <;> first | rfl | cases h

/-- After acceptance CMD names the command. -/
theorem accept_running (i : Instr) (p : Profile) (s : State) (h : profileOf i = some p) :
    (accept i s).running = some i := by
  simp [State.running, decode_cmdWord i p h]

/-! ### The two moments of a command -/

theorem command_of_idle {s : State} (i : Instr) (work : State → Result State) (h : s.busy = false) :
    command i work s = .next (issue i s) := by
  simp [command, h]

theorem command_of_running {s : State} {i : Instr} (work : State → Result State) (h : s.busy = true)
    (hr : s.running = some i) : command i work s = work s := by
  simp [command, h, hr]

theorem command_of_other {s : State} {i : Instr} (work : State → Result State) (h : s.busy = true)
    (hr : s.running ≠ some i) : command i work s = .next s := by
  simp [command, h, hr]

/-- A command is issued while idle, does its step while it runs, and nothing while another runs. -/
theorem command_cases (i : Instr) (work : State → Result State) (s : State) :
    (s.busy = false ∧ command i work s = .next (issue i s)) ∨
    (s.busy = true ∧ s.running = some i ∧ command i work s = work s) ∨
    (s.busy = true ∧ s.running ≠ some i ∧ command i work s = .next s) := by
  cases h : s.busy with
  | false => exact .inl ⟨rfl, command_of_idle i work h⟩
  | true =>
    by_cases hr : s.running = some i
    · exact .inr (.inl ⟨rfl, hr, command_of_running work h hr⟩)
    · exact .inr (.inr ⟨rfl, hr, command_of_other work h hr⟩)

/-! ### SEQ for the cipher commands -/

/-- A dispatch takes one block of PEND to one idle lane, or does nothing. -/
theorem dispatch_cases (d : Dir) (s : State) :
    (s.sel.blk ∈ s.pend ∧ s.lanes[s.sel.lane]? = some .idle ∧
      dispatch d s =
        { s with pend := s.pend.erase s.sel.blk, lanes := s.lanes.set s.sel.lane (activate d s.sel.blk) }) ∨
    (¬ (s.sel.blk ∈ s.pend ∧ s.lanes[s.sel.lane]? = some .idle) ∧ dispatch d s = s) := by
  unfold dispatch State.selLane
  by_cases h : s.sel.blk ∈ s.pend ∧ s.lanes[s.sel.lane]? = some .idle
  · exact .inl ⟨h.1, h.2, if_pos h⟩
  · exact .inr ⟨h, if_neg h⟩

/-- SEQ's step of a cipher command is a dispatch, the completion, or nothing. -/
theorem cipherWork_cases (i : Instr) (d : Dir) (s : State) :
    (s.pend ≠ [] ∧ cipherWork i d s = .next (dispatch d s)) ∨
    (s.pend = [] ∧ s.allIdle = true ∧ cipherWork i d s = .next (complete i s)) ∨
    (s.pend = [] ∧ s.allIdle = false ∧ cipherWork i d s = .next s) := by
  unfold cipherWork
  by_cases h : s.pend ≠ []
  · exact .inl ⟨h, if_pos h⟩
  · cases ha : s.allIdle <;> simp_all

/-- No lane is active exactly when every lane is idle. -/
theorem allIdle_iff (s : State) : s.allIdle = true ↔ ∀ l ∈ s.lanes, l = .idle := by
  simp only [State.allIdle, List.all_eq_true]
  refine forall₂_congr fun l _ => ?_
  cases l <;> simp [Lane.active]

/-! ### MEM as the engine sees it -/

/-- With no contested byte the engine reads MEM. -/
theorem engineBytes_of_calm (s : State) (a n : Nat) (h : s.contested = []) :
    engineBytes s a n = s.mem.readBytes a n := by
  simp [engineBytes, Memory.readBytes, h]

/-- Each byte the engine reads is the byte of MEM, or a free value where it is contested. -/
theorem engineBytes_get (s : State) (a n : Nat) (k : Fin n) :
    (engineBytes s a n)[k] =
      if a + k.val ∈ s.contested then Config.anyByte (s.free + k.val) else s.mem.read (a + k.val) := by
  simp [engineBytes]

theorem readBytes_get (m : Memory) (a n : Nat) (k : Fin n) : (m.readBytes a n)[k] = m.read (a + k.val) := by
  simp [Memory.readBytes]

/-- Reads draw no free value while no byte is contested. -/
theorem afterEngineRead_of_calm (s : State) (n : Nat) (h : s.contested = []) : afterEngineRead n s = s := by
  cases s
  simp_all [afterEngineRead]

/-! ### Control, reset, ENT -/

/-- An abort spoils at most the table being written. -/
theorem spoilTable_cases (i : Option Instr) (s : State) :
    ((i = some .genlut ∨ i = some .ldlut) ∧ spoilTable i s = lutAny s) ∨
    ((i = some .derinv ∨ i = some .ldinv) ∧ spoilTable i s = invAny s) ∨
    ((i ≠ some .genlut ∧ i ≠ some .ldlut ∧ i ≠ some .derinv ∧ i ≠ some .ldinv) ∧ spoilTable i s = s) := by
  cases i with
  | none => simp [spoilTable]
  | some i => cases i <;> simp [spoilTable]

/-- ENT's turn gives a waiting GENLUT the next answer, or does nothing. -/
theorem entStep_cases (s : State) :
    (∃ a rest, s.busy = true ∧ s.running = some .genlut ∧ s.entAns = none ∧ s.entScript = a :: rest ∧
      entStep s = { s with entAns := some a, entScript := rest }) ∨
    entStep s = s := by
  unfold entStep
  by_cases h : s.busy = true ∧ s.running = some .genlut ∧ s.entAns = none
  · rw [if_pos h]
    cases he : s.entScript with
    | nil => exact .inr rfl
    | cons a rest => exact .inl ⟨a, rest, h.1, h.2.1, h.2.2, rfl, rfl⟩
  · exact .inr (if_neg h)

/-! ### Moves and steps -/

theorem step_of_run {s t : State} {i : Instr} (h : nextMove s = .run i t) : step s = exec i t := by
  simp [step, h]

theorem step_of_over {s : State} {o : Result State} (h : nextMove s = .over o) : step s = o := by
  simp [step, h]

/-- The move at each agent's turn. -/
theorem nextMove_of_host {s : State} (h : s.turn = .host) : nextMove s = hostMove s.popTurn := by simp [nextMove, h]

theorem nextMove_of_seq {s : State} {k l : Nat} (h : s.turn = .seq k l) :
    nextMove s = seqMove { s.popTurn with sel := ⟨k, l⟩ } := by simp [nextMove, h]

theorem nextMove_of_lane {s : State} {l : Nat} (h : s.turn = .lane l) :
    nextMove s = laneMove { s.popTurn with sel := ⟨s.sel.blk, l⟩ } := by simp [nextMove, h]

theorem nextMove_of_ent {s : State} (h : s.turn = .ent) : nextMove s = .over (.next (entStep s.popTurn)) := by
  simp [nextMove, h]

theorem nextMove_of_reset {s : State} (h : s.turn = .reset) : nextMove s = .over (.next (resetEvent s.popTurn)) := by
  simp [nextMove, h]

/-- SEQ runs the command that CMD names while BUSY = 1, and nothing otherwise. -/
theorem seqMove_cases (s : State) :
    (∃ i, s.busy = true ∧ decode (.cmdw s.cmd) = .ok i ∧ s.running = some i ∧ seqMove s = .run i s) ∨
    seqMove s = .over (.next s) := by
  unfold seqMove State.running
  cases hb : s.busy with
  | false => exact .inr (by simp)
  | true =>
    cases hd : decode (.cmdw s.cmd) with
    | ok i => exact .inl ⟨i, rfl, rfl, rfl, by simp⟩
    | error e => exact .inr (by simp)

/-- A lane runs the micro-operation of its phase, and nothing while idle. -/
theorem laneMove_cases (s : State) :
    (∃ l i, s.lanes[s.sel.lane]? = some l ∧ decode (.ph l.phase) = .ok i ∧ laneMove s = .run i s) ∨
    laneMove s = .over (.next s) := by
  unfold laneMove State.selLane
  cases hl : s.lanes[s.sel.lane]? with
  | none => exact .inr rfl
  | some l =>
    cases hd : decode (.ph l.phase) with
    | ok i => exact .inl ⟨l, i, rfl, hd, by simp [hd]⟩
    | error e => exact .inr (by simp [hd])

/-- The HOST's write: a command's issue, a control request, a store to an operand register, a rejection, or nothing. -/
theorem hostWrite_cases (n : Nat) (w : Word) (s : State) :
    (∃ i, n = 0 ∧ s.busy = false ∧ decode (.cmdw w) = .ok i ∧ hostWrite n w s = .run i s) ∨
    (∃ i, n = 5 ∧ decode (.ctrlw w) = .ok i ∧ hostWrite n w s = .run i s) ∨
    (n = 0 ∧ s.busy = false ∧ hostWrite n w s = .over (.next (reject .illegalCommand s))) ∨
    (s.busy = false ∧ n ≠ 0 ∧ n ≠ 5 ∧ hostWrite n w s = .over (.next (operandWrite n w s))) ∨
    hostWrite n w s = .over (.next s) := by
  unfold hostWrite
  by_cases h0 : n = 0
  · cases hb : s.busy with
    | true => simp [h0]
    | false => cases hd : decode (.cmdw w) <;> simp [h0]
  · by_cases h5 : n = 5
    · cases hd : decode (.ctrlw w) <;> simp [h5]
    · cases hb : s.busy <;> simp [h0, h5]

/-- The words that are commands decode only as commands of the table of R93. -/
theorem profileOf_of_cmdw {w : Word} {i : Instr} (h : decode (.cmdw w) = .ok i) : ∃ p, profileOf i = some p := by
  simp only [decode, decodeCmdw] at h
  split at h
  · simp only [decodeOp] at h
    split at h <;> first | (cases h; exact ⟨_, rfl⟩) | cases h
  · cases h

/-- A control word decodes only as ABORT or CLR. -/
theorem instr_of_ctrlw {w : Word} {i : Instr} (h : decode (.ctrlw w) = .ok i) :
    (i = .abort (w.getLsbD 1) ∧ w.getLsbD 0 = true) ∨ (i = .clr ∧ w.getLsbD 0 = false ∧ w.getLsbD 1 = true) := by
  simp only [decode, decodeCtrlw] at h
  split at h
  · cases h; exact .inl ⟨rfl, by assumption⟩
  · split at h
    · cases h; exact .inr ⟨rfl, by simp_all, by assumption⟩
    · cases h

end Sys2Proof.Machine
end

