-- ==== Sys2Proof/Laws/Operands.lean ====
section
/-! SUPPORT. Rows, bytes, table indices and columns: what each assembling operation gives, and that it is undone. -/

namespace Sys2Proof.Machine

/-! ### Rows and bytes (R63) -/

@[simp] theorem hiByte_rowOf (h l : Byte) : hiByte (rowOf h l) = h := by
  apply BitVec.eq_of_toNat_eq
  have := h.isLt; have := l.isLt
  simp only [hiByte, rowOf, BitVec.extractLsb'_toNat, BitVec.toNat_append, Nat.shiftRight_eq_div_pow]
  rw [← Nat.shiftLeft_add_eq_or_of_lt l.isLt, Nat.shiftLeft_eq]
  omega

@[simp] theorem loByte_rowOf (h l : Byte) : loByte (rowOf h l) = l := by
  apply BitVec.eq_of_toNat_eq
  have := h.isLt; have := l.isLt
  simp only [loByte, rowOf, BitVec.extractLsb'_toNat, BitVec.toNat_append, Nat.shiftRight_eq_div_pow]
  rw [← Nat.shiftLeft_add_eq_or_of_lt l.isLt, Nat.shiftLeft_eq]
  omega

theorem rowOf_toNat (h l : Byte) : (rowOf h l).toNat = 256 * h.toNat + l.toNat := by
  simp only [rowOf, BitVec.toNat_append]
  rw [← Nat.shiftLeft_add_eq_or_of_lt l.isLt, Nat.shiftLeft_eq]
  omega

theorem hiByte_toNat (x : Row) : (hiByte x).toNat = x.toNat / 256 := by
  have := x.isLt
  simp only [hiByte, BitVec.extractLsb'_toNat, Nat.shiftRight_eq_div_pow]
  omega

theorem loByte_toNat (x : Row) : (loByte x).toNat = x.toNat % 256 := by
  simp only [loByte, BitVec.extractLsb'_toNat, Nat.shiftRight_eq_div_pow]
  omega

@[simp] theorem rowOf_hiByte_loByte (x : Row) : rowOf (hiByte x) (loByte x) = x := by
  apply BitVec.eq_of_toNat_eq
  rw [rowOf_toNat, hiByte_toNat, loByte_toNat]
  omega

/-! ### Table and column indices (R155, R157, R158) -/

/-- A table lookup in numbers. -/
theorem look_toNat (t : Table) (a : Byte) : (look t a).toNat = entryNat t a.toNat := by
  have := a.isLt
  simp [look, entryNat, List.getD_eq_getElem?_getD, this]

/-- The index of LTR: the low six bits of the last result above the next two bits of the low byte. -/
theorem ltrIndex_toNat (t lk : Byte) (h : lk.toNat < 4) : (ltrIndex t lk).toNat = t.toNat % 64 * 4 + lk.toNat := by
  have ht := t.isLt
  have e : (ltrIndex t lk).toNat = (t.toNat % 64) <<< 2 ||| lk.toNat := by
    simp only [ltrIndex, BitVec.toNat_or, BitVec.toNat_shiftLeft, Nat.shiftLeft_eq]
    congr 1
    omega
  rw [e, ← Nat.shiftLeft_add_eq_or_of_lt (by omega : lk.toNat < 2 ^ 2), Nat.shiftLeft_eq]

/-- Bit `b` of a gathered column is the bit of row `7 - b`. -/
theorem gatherColumn_getLsbD (rows : Rows) (c : Fin 16) (b : Fin 8) :
    (gatherColumn rows c).getLsbD b.val = matrixBit rows b.rev c := by
  simp [gatherColumn]

/-- After the scatter, the bit of row `i` in column `c` is bit `7 - i` of that column. -/
theorem scatterColumns_bit (cols : Vector Byte 16) (i : Fin 8) (c : Fin 16) :
    matrixBit (scatterColumns cols) i c = cols[c].getLsbD (7 - i.val) := by
  have h : 15 - (15 - c.val) = c.val := by omega
  have h' : 15 - c.val < 16 := by omega
  simp [matrixBit, scatterColumns, BitVec.getLsbD_eq_getElem h', h]

/-! ### Lanes -/

@[simp] theorem lane_idle_views : Lane.idle.active = false ∧ Lane.idle.phase = 0 ∧ Lane.idle.regs? = none := by
  refine ⟨rfl, rfl, rfl⟩

@[simp] theorem lane_pack_views (r : LaneRegs) :
    (Lane.pack r).active = true ∧ (Lane.pack r).phase = 1 ∧ (Lane.pack r).regs? = some r := by
  refine ⟨rfl, rfl, rfl⟩

@[simp] theorem lane_run_views (st : Stage) (r : LaneRegs) (rows : Rows) :
    (Lane.run st r rows).active = true ∧ (Lane.run st r rows).phase = st.code ∧
      (Lane.run st r rows).regs? = some r ∧ (Lane.run st r rows).rows? = some rows := by
  refine ⟨rfl, rfl, rfl, rfl⟩

/-- A lane's phase decodes to the one micro-operation it stands for, and IDLE to none (R97, R185). -/
theorem decode_lane_phase (l : Lane) :
    decode (.ph l.phase) =
      match l with
      | .idle => .error .idlePhase
      | .pack _ => .ok .pack
      | .run .ltr _ _ => .ok .ltr
      | .run .arc _ _ => .ok .arc
      | .run .cs _ _ => .ok .cs
      | .run .rtl _ _ => .ok .rtl
      | .run .unpack _ _ => .ok .unpack := by
  rcases l with _ | r | ⟨st, r, rows⟩
  · rfl
  · rfl
  · cases st <;> rfl

end Sys2Proof.Machine
end

