-- ==== Sys2Proof/Laws/PerInstr.lean ====
section
/-! SUPPORT. The family of per-instruction laws: an encoded instruction is no reserved code. -/

namespace Sys2Proof.Laws.EncodedReserved

/-- The code of an instruction is none that its format reserves: bits 31:4 of a command word are 0 and its opcode is one
of 1 to 11 (R91, R92); bits 31:2 of a control word are 0 and one of the two others is 1 (R96); a phase code is neither 0
nor 7 (R97). -/
def Statement (i : Instr) : Prop :=
  match encode i with
  | .cmdw w => w.extractLsb' 4 28 = 0 ∧ w ≠ 0 ∧ w.toNat < 12
  | .ctrlw w => w.extractLsb' 2 30 = 0 ∧ w ≠ 0
  | .ph p => p ≠ 0 ∧ p ≠ 7

theorem genlut : Statement .genlut := by simp [Statement, encode]
theorem derinv : Statement .derinv := by simp [Statement, encode]
theorem encb : Statement .encb := by simp [Statement, encode]
theorem decb : Statement .decb := by simp [Statement, encode]
theorem enc : Statement .enc := by simp [Statement, encode]
theorem dec : Statement .dec := by simp [Statement, encode]
theorem zero : Statement .zero := by simp [Statement, encode]
theorem ldlut : Statement .ldlut := by simp [Statement, encode]
theorem ldinv : Statement .ldinv := by simp [Statement, encode]
theorem rdlut : Statement .rdlut := by simp [Statement, encode]
theorem rdinv : Statement .rdinv := by simp [Statement, encode]
theorem abort (c : Bool) : Statement (.abort c) := by cases c <;> simp [Statement, encode]
theorem clr : Statement .clr := by simp [Statement, encode]
theorem pack : Statement .pack := by simp [Statement, encode]
theorem ltr : Statement .ltr := by simp [Statement, encode]
theorem arc : Statement .arc := by simp [Statement, encode]
theorem cs : Statement .cs := by simp [Statement, encode]
theorem rtl : Statement .rtl := by simp [Statement, encode]
theorem unpack : Statement .unpack := by simp [Statement, encode]

end Sys2Proof.Laws.EncodedReserved
end

