-- ==== Sys2Proof/Tests/Slice0.lean ====
section
/-! SUPPORT. Tests: ill-formed terms, words written out from the encoding tables, vectors of 95_test_vectors.md, and for
each statement with hypotheses a state that meets them. Expected values are the spec's. -/

namespace Sys2Proof.Tests

-- one theorem at a time: each thread of its own would reserve memory
set_option Elab.async false

open Sys2Proof Sys2Proof.Machine

/-! ### Tables and states used below -/

/-- Table A of 95_test_vectors.md. -/
def tableA : Table := Vector.ofFn fun i => BitVec.ofNat 8 (5 * i.val + 7)

/-- Table AI, the inverse of A (V42). -/
def tableAI : Table := Vector.ofFn fun v => BitVec.ofNat 8 (205 * (v.val + 249))

/-- Table NB of 95_test_vectors.md: no permutation. -/
def tableNB : Table := Vector.ofFn fun i => if i.val = 1 then 0 else BitVec.ofNat 8 i.val

/-- The rows of V37. -/
def rows37 : Rows := #v[0x0123, 0x4567, 0x89AB, 0xCDEF, 0xFEDC, 0xBA98, 0x7654, 0x3210]

/-- MEM with bytes 00 01 … 0F from address 0. -/
def mem16 : Memory :=
  [(1, 1), (2, 2), (3, 3), (4, 4), (5, 5), (6, 6), (7, 7), (8, 8), (9, 9), (10, 10), (11, 11), (12, 12), (13, 13),
    (14, 14), (15, 15)]

/-- Key state KEYED with A and AI, idle. -/
def keyed : State := { State.reset with lut := tableA, inv := tableAI, lutV := true, invV := true, mem := mem16 }

/-- `s` with the HOST to make one transaction. -/
def asks (x : HostTxn) (s : State) : State := { s with script := [x], sched := [.host] }

/-- `s` with one turn on the schedule. -/
def turnOf (t : Turn) (s : State) : State := { s with sched := [t] }

/-- KEYED, with the command of word `w` running from SRC = 0 to DST = 32, LEN = 32, and blocks `pend` pending. -/
def running (w : Word) (pend : List Nat) : State :=
  { keyed with cmd := w, busy := true, pend := pend, dst := 32, len := 32 }

/-- ENC running over two blocks, with lane 0 as given and the schedule's choice on it. -/
def withLane (l : Lane) : State := { running 5 [1] with lanes := [l, .idle] }

/-- Draws of 255 (V40). -/
def draws255 : Draws := ⟨Vector.replicate 255 255, by simp [drawsLegal]⟩

/-- Control registers of a lane on block 0 in round `q`. -/
def regs (d : Dir) (q : Fin 8) : LaneRegs := ⟨d, 0, q⟩

/-- The next state of an outcome, or a given one. -/
def after (o : Result State) (s : State) : State :=
  match o with
  | .next t => t
  | _ => s

/-- The outcome is a next state. -/
def isNext (o : Result State) : Bool :=
  match o with
  | .next _ => true
  | _ => false

/-- The outcome is this fault. -/
def isFault (f : Fault) (o : Result State) : Bool :=
  match o with
  | .fault g => decide (g = f)
  | _ => false

theorem next_of_isNext {o : Result State} (s : State) (h : isNext o = true) : o = .next (after o s) := by
  cases o <;> first | rfl | cases h

theorem fault_of_isFault {o : Result State} {f : Fault} (h : isFault f o = true) : o = .fault f := by
  cases o with
  | fault g => rw [of_decide_eq_true h]
  | _ => cases h

/-- The rows of lane 0 after an outcome. -/
def rowsAfter (o : Result State) : Option Rows := ((after o State.reset).lanes.head?.bind Lane.rows?)

/-! ### Well-formedness: ill-formed terms are refused -/

theorem test_draw_below_its_index_is_refused : drawsLegal (Vector.replicate 255 0) = false := by decide +kernel
theorem test_write_at_mem_bytes_is_refused : (HostTxn.wm 4096 0).wf 4096 = false := by decide
theorem test_read_at_mem_bytes_is_refused : (HostTxn.rm 4096).wf 4096 = false := by decide
theorem test_unmapped_register_is_well_formed : (HostTxn.wr 6 0).wf 4096 = true := by decide
theorem test_unsorted_memory_is_refused : Memory.wf [(2, 1), (1, 1)] = false := by decide
theorem test_listed_unlisted_byte_is_refused : Memory.wf [(1, 0)] = false := by decide

/-! ### Decoding: every constructor's word, written out from R92, R96, R97 -/

theorem test_decode_genlut : decode (.cmdw 0b00000000000000000000000000000001) = .ok .genlut := by rfl
theorem test_decode_derinv : decode (.cmdw 0b00000000000000000000000000000010) = .ok .derinv := by rfl
theorem test_decode_encb : decode (.cmdw 0b00000000000000000000000000000011) = .ok .encb := by rfl
theorem test_decode_decb : decode (.cmdw 0b00000000000000000000000000000100) = .ok .decb := by rfl
theorem test_decode_enc : decode (.cmdw 0b00000000000000000000000000000101) = .ok .enc := by rfl
theorem test_decode_dec : decode (.cmdw 0b00000000000000000000000000000110) = .ok .dec := by rfl
theorem test_decode_zero : decode (.cmdw 0b00000000000000000000000000000111) = .ok .zero := by rfl
theorem test_decode_ldlut : decode (.cmdw 0b00000000000000000000000000001000) = .ok .ldlut := by rfl
theorem test_decode_ldinv : decode (.cmdw 0b00000000000000000000000000001001) = .ok .ldinv := by rfl
theorem test_decode_rdlut : decode (.cmdw 0b00000000000000000000000000001010) = .ok .rdlut := by rfl
theorem test_decode_rdinv : decode (.cmdw 0b00000000000000000000000000001011) = .ok .rdinv := by rfl
theorem test_decode_abort : decode (.ctrlw 0b00000000000000000000000000000001) = .ok (.abort false) := by rfl
theorem test_decode_abort_clr : decode (.ctrlw 0b00000000000000000000000000000011) = .ok (.abort true) := by rfl
theorem test_decode_clr : decode (.ctrlw 0b00000000000000000000000000000010) = .ok .clr := by rfl
theorem test_decode_ctrl_ignores_high_bits : decode (.ctrlw 0xFFFFFFFE) = .ok .clr := by rfl
theorem test_decode_pack : decode (.ph 0b001) = .ok .pack := by rfl
theorem test_decode_ltr : decode (.ph 0b010) = .ok .ltr := by rfl
theorem test_decode_arc : decode (.ph 0b011) = .ok .arc := by rfl
theorem test_decode_cs : decode (.ph 0b100) = .ok .cs := by rfl
theorem test_decode_rtl : decode (.ph 0b101) = .ok .rtl := by rfl
theorem test_decode_unpack : decode (.ph 0b110) = .ok .unpack := by rfl
theorem test_decode_idle_phase : decode (.ph 0b000) = .error .idlePhase := by rfl
theorem test_decode_no_phase : decode (.ph 0b111) = .error .noPhase := by rfl
theorem test_decode_opcode_0 : decode (.cmdw 0x0) = .error .reservedOpcode := by rfl
theorem test_decode_opcode_C : decode (.cmdw 0xC) = .error .reservedOpcode := by rfl
theorem test_decode_upper_bits : decode (.cmdw 0x13) = .error .reservedBits := by rfl
theorem test_decode_no_request : decode (.ctrlw 0xFFFFFFFC) = .error .noRequest := by rfl

/-! ### One step of each instruction, on vectors of 95_test_vectors.md -/

/-- V42: the entry that the fourth iteration writes. -/
theorem test_derinv_iterations : look (invertSteps tableA (Vector.replicate 256 0) 4) 0x16 = 0x03 := by decide +kernel

/-- V43. -/
theorem test_derinv_of_NB :
    statusWord (after (exec .derinv { running 2 [] with lut := tableNB, invV := false }) keyed) = 0x22C := by
  have h : ¬ IsPermutation tableNB := fun h => absurd (h 0) (by decide +kernel)
  have e : exec .derinv { running 2 [] with lut := tableNB, invV := false } =
      .next (runError .invalidLut (invAny { running 2 [] with lut := tableNB, invV := false })) := by
    rw [exec, execDerinv, command_of_running _ rfl rfl, derinvWork, if_neg h]
  rw [e]
  decide +kernel

/-- V40: the array after the iterations 0, 1 and 2, and the status at the end. -/
theorem test_genlut_iterations :
    let t := shuffleSteps draws255.seq 3
    (look t 0, look t 1, look t 2, look t 3, look t 255) = (0xFF, 0x00, 0x01, 0x03, 0x02) := by decide +kernel
theorem test_genlut_status :
    statusWord (after (exec .genlut { running 1 [] with
      lutV := false, invV := false, entAns := some (.available draws255) }) keyed) = 0x2A := by decide +kernel

/-- V47. -/
theorem test_genlut_unavailable :
    statusWord (after (exec .genlut { running 1 [] with
      lutV := false, invV := false, entAns := some .unavailable }) keyed) = 0x304 := by decide +kernel

/-- V82 and V85: ENCB needs LUT_V; 0x13 is no ENCB. -/
theorem test_encb_not_keyed : statusWord (after (exec .encb State.reset) keyed) = 0x404 := by decide +kernel
theorem test_cmd_13_is_illegal : statusWord (after (step (asks (.wr 0 0x13) State.reset)) keyed) = 0x504 := by
  decide +kernel

/-- V83. -/
theorem test_decb_needs_inv : statusWord (after (exec .decb { keyed with invV := false }) keyed) = 0x42C := by
  decide +kernel

/-- V87 and V88. -/
theorem test_enc_bad_address :
    statusWord (after (exec .enc { keyed with invV := false, src := 0xFF1, len := 16 }) keyed) = 0x62C := by
  decide +kernel
theorem test_enc_address_before_alias :
    statusWord (after (exec .enc { keyed with invV := false, src := 0xFF0, dst := 0xFF8, len := 16 }) keyed) = 0x62C := by
  decide +kernel

/-- V80 (for DEC) and V81. -/
theorem test_dec_length : statusWord (after (exec .dec { keyed with len := 17 }) keyed) = 0x15C := by decide +kernel
theorem test_dec_length_before_key : statusWord (after (exec .dec { State.reset with len := 20 }) keyed) = 0x104 := by
  decide +kernel

/-- V89. -/
theorem test_encb_bad_alias :
    statusWord (after (exec .encb { keyed with invV := false, dst := 8 }) keyed) = 0x72C := by decide +kernel

/-- V73. -/
theorem test_zero_step :
    let t := after (exec .zero { running 7 [] with lutV := false, invV := false }) keyed
    look t.lut 0 = 0 ∧ look t.inv 255 = 0 ∧ statusWord t = 0x62 := by decide +kernel

/-- V45: the last source address that fits, and the first that does not. -/
theorem test_ldlut_at_the_end : (after (exec .ldlut { keyed with src := 0xF00 }) keyed).busy = true := by decide +kernel
theorem test_ldlut_past_the_end : statusWord (after (exec .ldlut { keyed with src := 0xF01 }) keyed) = 0x65C := by
  decide +kernel

/-- R129: LDINV clears ZD at acceptance and keeps LUT_V. -/
theorem test_ldinv_accepted :
    let t := after (exec .ldinv { State.reset with zd := true }) keyed
    (t.lutV, t.invV, t.zd, t.busy) = (false, false, false, true) := by decide +kernel

/-- V42: RDINV 0x400 of AI, and RDLUT likewise of A. -/
theorem test_rdinv_step :
    (after (exec .rdinv { running 0xB [] with dst := 0x400 }) keyed).mem.read 0x400 = 0x65 := by decide +kernel
theorem test_rdlut_step :
    (after (exec .rdlut { running 0xA [] with dst := 0x400 }) keyed).mem.read 0x401 = 0x0C := by decide +kernel

/-- V7A (b): ABORT of a running ENC. -/
theorem test_abort_status : statusWord (after (exec (.abort false) (running 5 [0, 1])) keyed) = 0x85C := by
  decide +kernel

/-- V79a. -/
theorem test_clr_status :
    statusWord (after (exec .clr { keyed with lutV := false, err := true, ecode := .notKeyed }) keyed) = 0x30 := by
  decide +kernel

/-- V10. -/
theorem test_pack_step :
    rowsAfter (exec .pack (withLane (.pack (regs .enc 0)))) =
      some #v[0x0001, 0x0203, 0x0405, 0x0607, 0x0809, 0x0A0B, 0x0C0D, 0x0E0F] := by decide +kernel

/-- V21 and V22 (LTR). -/
theorem test_ltr_step :
    rowsAfter (exec .ltr (withLane (.run .ltr (regs .enc 0)
      #v[0x1234, 0xFFFF, 0x1234, 0xFFFF, 0x1234, 0xFFFF, 0x1234, 0xFFFF]))) =
      some #v[0x6317, 0x0EAE, 0x6317, 0x0EAE, 0x6317, 0x0EAE, 0x6317, 0x0EAE] := by decide +kernel

/-- V21 and V22 (RTL). -/
theorem test_rtl_step :
    rowsAfter (exec .rtl (withLane (.run .rtl (regs .enc 0)
      #v[0x1234, 0xFFFF, 0x1234, 0xFFFF, 0x1234, 0xFFFF, 0x1234, 0xFFFF]))) =
      some #v[0x3E77, 0xA38E, 0x3E77, 0xA38E, 0x3E77, 0xA38E, 0x3E77, 0xA38E] := by decide +kernel

/-- V37 and V39a. -/
theorem test_cs_step :
    rowsAfter (exec .cs (withLane (.run .cs (regs .enc 0) rows37))) =
      some #v[0x4567, 0x7654, 0x89AB, 0xBBBB, 0x4444, 0x0123, 0xBBBB, 0xCDEF] := by decide +kernel
theorem test_cs_inverse_step :
    rowsAfter (exec .cs (withLane (.run .cs (regs .dec 0)
      #v[0x4567, 0x7654, 0x89AB, 0xBBBB, 0x4444, 0x0123, 0xBBBB, 0xCDEF]))) = some rows37 := by decide +kernel

/-- V35a, encrypting in round 3; the same constants decrypting in round 4 (R184). -/
theorem test_arc_step :
    rowsAfter (exec .arc (withLane (.run .arc (regs .enc 3) rows37))) =
      some #v[0x0103, 0x456F, 0x89A9, 0x4DEF, 0xDEDC, 0xB298, 0x7454, 0x3290] := by decide +kernel
theorem test_arc_decrypting_step :
    rowsAfter (exec .arc (withLane (.run .arc (regs .dec 4) rows37))) =
      some #v[0x0103, 0x456F, 0x89A9, 0x4DEF, 0xDEDC, 0xB298, 0x7454, 0x3290] := by decide +kernel

/-- V13. -/
theorem test_unpack_step :
    ((after (exec .unpack (withLane (.run .unpack (regs .enc 7)
      #v[0xFF00, 0x00FF, 0x1234, 0xABCD, 0x0000, 0xFFFF, 0x8001, 0x7FFE]))) keyed).mem.readBytes 32 16).toList =
      [0xFF, 0x00, 0x00, 0xFF, 0x12, 0x34, 0xAB, 0xCD, 0x00, 0x00, 0xFF, 0xFF, 0x80, 0x01, 0x7F, 0xFE] := by
  decide +kernel

/-- Round 0 of the V50 trace and round 0 of the V51 trace. -/
theorem test_round_encrypt :
    encRound tableA 0 #v[0x0001, 0x0203, 0x0405, 0x0607, 0x0809, 0x0A0B, 0x0C0D, 0x0E0F] =
      #v[0xAE2D, 0xEDFB, 0xE8ED, 0x0A83, 0x5C45, 0x216C, 0x218E, 0xBD32] := by
  decide +kernel
theorem test_round_decrypt :
    decRound tableAI 0 #v[0x29B7, 0x3256, 0x38B9, 0x2AF1, 0x7D84, 0x70BF, 0xE043, 0x2B1D] =
      #v[0xBD4B, 0x5B43, 0x0E4F, 0x726D, 0x4D36, 0x981E, 0x66D9, 0x2472] := by
  decide +kernel

/-! ### Each statement's hypotheses are met

One theorem per statement that has hypotheses, with every clause at a boundary of its range. -/

theorem tableA_isPermutation : IsPermutation tableA := by
  have hl : tableA.toList = List.ofFn fun i : Fin 256 => BitVec.ofNat 8 (5 * i.val + 7) := by
    rw [tableA, Vector.toList_ofFn]
  intro v
  rw [hl]
  refine List.count_eq_one_of_mem (List.nodup_ofFn.2 fun a b h => ?_) ?_
  · have := congrArg BitVec.toNat h
    simp only [BitVec.toNat_ofNat] at this
    omega
  · have hv := v.isLt
    refine (List.mem_ofFn' _ _).2 ⟨⟨205 * (v.toNat + 249) % 256, by omega⟩, BitVec.eq_of_toNat_eq ?_⟩
    simp only [BitVec.toNat_ofNat]
    omega

theorem tableAI_undoes_tableA : InverseOf tableAI tableA := by
  intro v
  have hv := v.isLt
  apply BitVec.eq_of_toNat_eq
  simp only [look, tableA, tableAI, Vector.getElem_ofFn, BitVec.toNat_ofNat]
  omega

theorem tableNB_isNoPermutation : ¬ IsPermutation tableNB := fun h => absurd (h 0) (by decide +kernel)

/-- The invariant of a concrete state, clause by clause. -/
theorem keyed_inv : Inv keyed :=
  ⟨by decide +kernel, by decide +kernel, by decide +kernel, by decide +kernel, by decide +kernel, by decide +kernel⟩

theorem witness_DecodeAndEncodeAgree :
    Instr.wf .rdinv = true ∧ decode (.ctrlw 0xFFFFFFFF) = .ok (.abort true) ∧ decode (.cmdw 0xB) = .ok .rdinv ∧
      decode (.ph 6) = .ok .unpack := by
  exact ⟨rfl, rfl, rfl, rfl⟩

/-- `w` is no command word and the HOST is about to write it to CMD. -/
abbrev ReservedWritten (w : Word) : Prop :=
  HostTurn (asks (.wr 0 w) keyed) (.wr 0 w) [] ∧ (asks (.wr 0 w) keyed).busy = false ∧
    (w.toNat / 16 ≠ 0 ∨ w.toNat % 16 = 0 ∨ 12 ≤ w.toNat % 16)

theorem witness_ReservedCommandWordsAreIllegal :
    ReservedWritten 0x0 ∧ ReservedWritten 0xC ∧ ReservedWritten 0xF ∧ ReservedWritten 0x10 ∧
      ReservedWritten 0xFFFFFFF3 := by
  decide +kernel

theorem witness_StepRunsTheDecodedInstruction :
    (HostTurn (asks (.wr 0 0xB) keyed) (.wr 0 0xB) [] ∧ decode (.cmdw 0xB) = .ok .rdinv) ∧
    (HostTurn (asks (.wr 5 3) keyed) (.wr 5 3) [] ∧ decode (.ctrlw 3) = .ok (.abort true)) ∧
    ((turnOf (.seq 1 0) (running 5 [1])).turn = .seq 1 0 ∧ (running 5 [1]).busy = true ∧
      decode (.cmdw (running 5 [1]).cmd) = .ok .enc) ∧
    ((turnOf (.lane 0) (withLane (.pack (regs .enc 0)))).turn = .lane 0 ∧
      (withLane (.pack (regs .enc 0))).lanes[0]? = some (.pack (regs .enc 0)) ∧
      decode (.ph (Lane.pack (regs .enc 0)).phase) = .ok .pack) := by
  exact ⟨⟨by decide +kernel, rfl⟩, ⟨by decide +kernel, rfl⟩, ⟨by decide +kernel, by decide +kernel, rfl⟩,
    by decide +kernel, by decide +kernel, rfl⟩

theorem witness_NothingRunsWhileIdle :
    Inv keyed ∧ keyed.busy = false ∧ (turnOf (.seq 0 0) keyed).turn = .seq 0 0 ∧
      (turnOf (.lane 1) keyed).turn = .lane 1 ∧ (turnOf .ent keyed).turn = .ent :=
  ⟨keyed_inv, by decide +kernel, by decide +kernel, by decide +kernel, by decide +kernel⟩

theorem witness_ResetEventGivesResetValues :
    (turnOf .reset (running 5 [1])).turn = .reset ∧ (running 5 [1]).mem.wf = true := by decide +kernel

/-- A state in which a command is about to be issued, and one in which a block is in flight. -/
theorem asks_inv : Inv (asks (.wr 0 3) keyed) :=
  ⟨by decide +kernel, by decide +kernel, by decide +kernel, by decide +kernel, by decide +kernel, by decide +kernel⟩

theorem inFlight_inv : Inv (turnOf (.lane 0) (withLane (.run .unpack (regs .enc 7) rows37))) :=
  ⟨by decide +kernel, by decide +kernel, by decide +kernel, by decide +kernel, by decide +kernel, by decide +kernel⟩

theorem witness_EveryStepKeepsInvariant :
    (∃ t, Inv (asks (.wr 0 3) keyed) ∧ step (asks (.wr 0 3) keyed) = .next t) ∧
    (∃ t, Inv (turnOf (.lane 0) (withLane (.run .unpack (regs .enc 7) rows37))) ∧
      step (turnOf (.lane 0) (withLane (.run .unpack (regs .enc 7) rows37))) = .next t) :=
  ⟨⟨_, asks_inv, next_of_isNext keyed (by decide +kernel)⟩, _, inFlight_inv, next_of_isNext keyed (by decide +kernel)⟩

theorem witness_OnlyHostAccessOutsideMemFaults :
    Inv (asks (.wm 4096 1) keyed) ∧ step (asks (.wm 4096 1) keyed) = .fault .hostAddress ∧
    Inv (asks (.rm 4096) keyed) ∧ step (asks (.rm 4096) keyed) = .fault .hostAddress :=
  ⟨⟨by decide +kernel, by decide +kernel, by decide +kernel, by decide +kernel, by decide +kernel, by decide +kernel⟩,
    fault_of_isFault (by decide +kernel),
    ⟨by decide +kernel, by decide +kernel, by decide +kernel, by decide +kernel, by decide +kernel, by decide +kernel⟩,
    fault_of_isFault (by decide +kernel)⟩

theorem witness_StatusReadsItsFields :
    HostTurn (asks (.rd 1) keyed) (.rd 1) [] ∧ HostTurn (asks (.wr 1 0xFFFFFFFF) keyed) (.wr 1 0xFFFFFFFF) [] := by
  decide +kernel

theorem witness_OperandRegistersHoldWhatTheHostWrote :
    keyed.busy = false ∧ (∀ n ∈ [2, 3, 4], HostTurn (asks (.wr n 0xFFFFFFFF) keyed) (.wr n 0xFFFFFFFF) []) ∧
    (running 5 [1]).busy = true ∧ (∀ n ∈ [2, 3, 4], HostTurn (asks (.wr n 7) (running 5 [1])) (.wr n 7) []) ∧
    (∀ n ∈ [2, 3, 4], HostTurn (asks (.rd n) (running 5 [1])) (.rd n) []) ∧
    exec .enc (running 5 [1]) = .next (after (exec .enc (running 5 [1])) keyed) :=
  ⟨by decide +kernel, by decide +kernel, by decide +kernel, by decide +kernel, by decide +kernel,
    next_of_isNext keyed (by decide +kernel)⟩

theorem witness_OtherRegistersReadAndDropAsMapped :
    HostTurn (asks (.rd 0) keyed) (.rd 0) [] ∧
    (HostTurn (asks (.wr 0 3) (running 5 [1])) (.wr 0 3) [] ∧ (running 5 [1]).busy = true) ∧
    (∀ n ∈ [5, 6, 4096], HostTurn (asks (.rd n) keyed) (.rd n) []) ∧
    (∀ n ∈ [6, 4096], HostTurn (asks (.wr n 1) keyed) (.wr n 1) []) := by
  decide +kernel

theorem witness_HostReadsAndWritesMemoryBytes :
    (running 5 [1]).mem.wf = true ∧ keyed.mem.wf = true ∧
    (HostTurn (asks (.wm 64 1) (running 5 [1])) (.wm 64 1) [] ∧ 64 < (running 5 [1]).memBytes ∧
      (running 5 [1]).inSource 64 = false ∧ (running 5 [1]).inDest 64 = false) ∧
    (HostTurn (asks (.wm 4095 1) keyed) (.wm 4095 1) [] ∧ 4095 < keyed.memBytes ∧
      keyed.inSource 4095 = false ∧ keyed.inDest 4095 = false) ∧
    (HostTurn (asks (.rm 31) (running 5 [1])) (.rm 31) [] ∧ (running 5 [1]).inDest 31 = false ∧
      31 ∉ (running 5 [1]).contested) ∧
    (keyed.memBytes ≤ 4096 ∧ HostTurn (asks (.wm 4096 1) keyed) (.wm 4096 1) [] ∧
      HostTurn (asks (.rm 4096) keyed) (.rm 4096) []) := by
  decide +kernel

theorem witness_HostAccessToBusyBuffersIsContested :
    (∀ a ∈ [0, 31, 32, 63], a < (running 5 [1]).memBytes ∧ HostTurn (asks (.wm a 1) (running 5 [1])) (.wm a 1) [] ∧
      ((running 5 [1]).inSource a = true ∨ (running 5 [1]).inDest a = true)) ∧
    (∀ a ∈ [32, 63], HostTurn (asks (.rm a) (running 5 [1])) (.rm a) [] ∧ (running 5 [1]).inDest a = true) ∧
    (HostTurn (asks (.rm 0) { running 5 [1] with contested := [0] }) (.rm 0) []) := by
  decide +kernel

theorem witness_ContestedBytesEndFree :
    ({ running 5 [1] with contested := [0, 33] }).mem.wf = true ∧ ([0, 33] : List Nat).Nodup := by
  decide +kernel

theorem witness_BlockCommandsIssueInCheckOrder :
    keyed.busy = false ∧
    ((Instr.encb = .encb ∧ true = keyed.lutV ∧ (3 : Word) = 3) ∧ (Instr.decb = .decb ∧ true = keyed.invV ∧ (4 : Word) = 4)) ∧
    keyed.src.toNat + 16 ≤ keyed.memBytes := by
  decide +kernel

theorem witness_BulkCommandsIssueInCheckOrder :
    keyed.busy = false ∧
    ((Instr.enc = .enc ∧ true = keyed.lutV ∧ (5 : Word) = 5) ∧ (Instr.dec = .dec ∧ true = keyed.invV ∧ (6 : Word) = 6)) ∧
    keyed.len.toNat = 0 := by
  decide +kernel

theorem witness_DispatchActivatesAnIdleLane :
    ∀ x ∈ [((3 : Word), Instr.encb), (4, .decb), (5, .enc), (6, .dec)],
      (running x.1 [0]).busy = true ∧ (running x.1 [0]).running = some x.2 ∧
      (running x.1 [0]).sel.blk ∈ (running x.1 [0]).pend ∧ (running x.1 [0]).pend.Nodup ∧
      (running x.1 [0]).lanes[(running x.1 [0]).sel.lane]? = some .idle := by
  decide +kernel

theorem witness_CipherCommandsComplete :
    ∀ x ∈ [((3 : Word), Instr.encb), (4, .decb), (5, .enc), (6, .dec)],
      (running x.1 []).busy = true ∧ (running x.1 []).running = some x.2 ∧ (running x.1 []).pend = [] ∧
      ∀ l ∈ (running x.1 []).lanes, l = .idle := by
  decide +kernel

theorem witness_GenlutFillsLutOnceEntAnswers :
    State.reset.busy = false ∧ (running 1 []).busy = true ∧ (running 1 []).running = some .genlut ∧
    (running 1 []).entAns = none ∧
    ({ running 1 [] with entAns := some (.available draws255) }).entAns = some (.available draws255) ∧
    ({ running 1 [] with entAns := some .unavailable }).entAns = some .unavailable := by
  refine ⟨rfl, rfl, by decide +kernel, rfl, rfl, rfl⟩

theorem witness_EntAnswersAWaitingGenlutOnce :
    (turnOf .ent { running 1 [] with entScript := [.unavailable] }).turn = .ent ∧ (running 1 []).busy = true ∧
    (running 1 []).running = some .genlut ∧ (running 1 []).entAns = none ∧
    (turnOf .ent keyed).turn = .ent ∧ keyed.busy = false ∧
    (turnOf .ent (running 5 [1])).turn = .ent ∧ (running 5 [1]).running ≠ some .genlut ∧
    (turnOf .ent { running 1 [] with entAns := some .unavailable }).turn = .ent ∧
    (turnOf .ent (running 1 [])).turn = .ent ∧ (running 1 []).entScript = [] := by
  refine ⟨rfl, rfl, by decide +kernel, rfl, rfl, rfl, rfl, by decide +kernel, rfl, rfl, rfl⟩

theorem witness_ShuffleReachesEveryPermutationOnce : IsPermutation tableA := tableA_isPermutation

theorem witness_DerinvInvertsAPermutation :
    keyed.busy = false ∧ (running 2 []).busy = true ∧ (running 2 []).running = some .derinv ∧
    IsPermutation (running 2 []).lut ∧ ¬ IsPermutation ({ running 2 [] with lut := tableNB }).lut :=
  ⟨rfl, rfl, by decide +kernel, tableA_isPermutation, tableNB_isNoPermutation⟩

/-- For LdlutLoadsLutFromMemory, LdinvLoadsInvFromMemory, RdlutStoresLutToMemory and RdinvStoresInvToMemory. -/
theorem witness_table_transfers :
    keyed.busy = false ∧
    (∀ x ∈ [((8 : Word), Instr.ldlut), (9, .ldinv), (0xA, .rdlut), (0xB, .rdinv)],
      ({ running x.1 [] with src := 0xF00, dst := 0xF00 }).busy = true ∧
      ({ running x.1 [] with src := 0xF00, dst := 0xF00 }).running = some x.2 ∧
      (0xF00 : Word).toNat + 256 ≤ (running x.1 []).memBytes ∧ (running x.1 []).mem.wf = true) := by
  decide +kernel

theorem witness_ZeroClearsBothTables :
    keyed.busy = false ∧ (running 7 []).busy = true ∧ (running 7 []).running = some .zero := by decide +kernel

/-- Command `w` runs and is not ZERO. -/
abbrev AbortableRuns (w : Word) : Prop := (running w []).busy = true ∧ (running w []).running ≠ some .zero

theorem witness_AbortStopsARunningCommand :
    AbortableRuns 1 ∧ AbortableRuns 2 ∧ AbortableRuns 5 ∧ AbortableRuns 8 ∧ AbortableRuns 9 := by
  decide +kernel

/-- The HOST is about to write `w` to CTRL. -/
abbrev CtrlWritten (w : Word) (s : State) : Prop := HostTurn (asks (.wr 5 w) s) (.wr 5 w) []

theorem witness_ClrClearsTheStatus :
    keyed.busy = false ∧ (CtrlWritten 2 keyed ∧ (2 : Word).getLsbD 1 = true) ∧
    (CtrlWritten 3 keyed ∧ (3 : Word).getLsbD 1 = true) ∧
    (CtrlWritten 0xFFFFFFFE keyed ∧ (0xFFFFFFFE : Word).getLsbD 1 = true) := by
  decide +kernel

theorem witness_ControlRequestsOutsideTheirCaseDoNothing :
    (CtrlWritten 1 keyed ∧ keyed.busy = false) ∧
    (CtrlWritten 1 (running 7 []) ∧ (running 7 []).busy = true ∧ (running 7 []).running = some .zero) ∧
    (CtrlWritten 2 (running 5 [1]) ∧ (running 5 [1]).busy = true) ∧
    (CtrlWritten 0 keyed ∧ (0 : Word).getLsbD 0 = false ∧ (0 : Word).getLsbD 1 = false) ∧
    (CtrlWritten 0xFFFFFFFC keyed ∧ (0xFFFFFFFC : Word).getLsbD 0 = false ∧
      (0xFFFFFFFC : Word).getLsbD 1 = false) := by
  decide +kernel

theorem witness_PackReadsTheBlockBigEndian :
    (withLane (.pack (regs .enc 0))).lanes[0]? = some (.pack (regs .enc 0)) ∧
    (withLane (.pack (regs .enc 0))).sel.lane = 0 ∧ (0xFF0 : Word).toNat + 16 * (regs .enc 0).blk + 16 ≤ 4096 ∧
    4096 < (0xFF1 : Word).toNat + 16 * (regs .enc 0).blk + 16 ∧ keyed.memBytes = 4096 := by
  decide +kernel

theorem witness_UnpackWritesTheBlockBigEndian :
    (withLane (.run .unpack (regs .enc 7) rows37)).lanes[0]? = some (.run .unpack (regs .enc 7) rows37) ∧
    (withLane (.run .unpack (regs .enc 7) rows37)).mem.wf = true ∧ (0xFF0 : Word).toNat + 16 * 0 + 16 ≤ 4096 ∧
    4096 < (0xFF1 : Word).toNat + 16 * 0 + 16 ∧ keyed.memBytes = 4096 := by
  decide +kernel

/-- For LtrSubstitutesEveryRow, RtlSubstitutesEveryRow, CsSubstitutesEveryColumn and ArcFlipsOneBitPerRow. -/
theorem witness_lane_stages :
    (∀ d ∈ [Dir.enc, .dec], ∀ q ∈ [(0 : Fin 8), 6, 7],
      (withLane (.run .ltr (regs d q) rows37)).lanes[0]? = some (.run .ltr (regs d q) rows37) ∧
      (withLane (.run .rtl (regs d q) rows37)).lanes[0]? = some (.run .rtl (regs d q) rows37) ∧
      (withLane (.run .cs (regs d q) rows37)).lanes[0]? = some (.run .cs (regs d q) rows37) ∧
      (withLane (.run .arc (regs d q) rows37)).lanes[0]? = some (.run .arc (regs d q) rows37)) ∧
    ((regs .enc 7).dir = .enc ∧ 7 = (regs .enc 7).rnd.val) ∧ ((regs .dec 7).dir = .dec ∧ 0 = 7 - (regs .dec 7).rnd.val) ∧
    ((7 : Fin 8).val = (regs .enc 6).rnd.val + 1) ∧ (regs .enc 7).rnd = 7 := by
  decide +kernel

theorem witness_RotationMovesEveryBit : (0 ≤ 15 ∧ 0 < 16) ∧ (15 ≤ 15 ∧ 15 < 16) := by decide

/-- For LtrAndRtlUndoEachOther, CsAndArcUndoThemselves and DecryptionUndoesEncryption. -/
theorem witness_inverse_tables : IsPermutation tableA ∧ InverseOf tableAI tableA :=
  ⟨tableA_isPermutation, tableAI_undoes_tableA⟩

/-- Lane 0 about to run its block alone. -/
def laneAlone : State :=
  { withLane (.pack (regs .enc 0)) with sched := List.replicate 34 (Turn.lane 0) ++ [Turn.host] }

theorem witness_LaneRunsOneBlockInThirtyFourSteps :
    laneAlone.lanes[0]? = some (.pack (regs .enc 0)) ∧ (regs .enc 0).rnd = 0 ∧
      laneAlone.sched = List.replicate 34 (Turn.lane 0) ++ [Turn.host] ∧ laneAlone.contested = [] ∧
      blockAddr laneAlone.src (regs .enc 0).blk + 16 ≤ laneAlone.memBytes ∧
      blockAddr laneAlone.dst (regs .enc 0).blk + 16 ≤ laneAlone.memBytes := by
  decide +kernel

theorem witness_NetEffectTransformsEveryBlock : mem16.wf = true ∧ 1 < 2 ∧
    ¬ inRegion 64 (32 : Word).toNat (16 * 2) ∧ ¬ inRegion 31 (32 : Word).toNat (16 * 2) := by
  decide +kernel

theorem witness_BulkDecryptionRestoresTheBuffer :
    IsPermutation tableA ∧ InverseOf tableAI tableA ∧ mem16.wf = true ∧ 0 < 1 :=
  ⟨tableA_isPermutation, tableAI_undoes_tableA, by decide +kernel, by decide⟩

/-- ENC over two blocks, just accepted, with nothing on the schedule; the HOST is to write ABORT, or nothing. -/
def encAccepted (ask : Bool) : State := { running 5 [0, 1] with script := if ask then [.wr 5 1] else [] }

theorem encAccepted_justAccepted (ask : Bool) : JustAccepted .enc .enc (encAccepted ask) where
  inv := ⟨by cases ask <;> decide +kernel, by cases ask <;> decide +kernel, by cases ask <;> decide +kernel,
    by cases ask <;> decide +kernel, by cases ask <;> decide +kernel, by cases ask <;> decide +kernel⟩
  busy := rfl
  running := by cases ask <;> decide +kernel
  dir := rfl
  idle := by cases ask <;> decide +kernel
  pend := by cases ask <;> decide +kernel
  calm := rfl

/-- DEC of 0 bytes, just accepted: nothing is pending and the next step completes it. -/
def decOfNothing : State := { running 6 [] with len := 0 }

theorem decOfNothing_justAccepted : JustAccepted .dec .dec decOfNothing where
  inv := ⟨by decide +kernel, by decide +kernel, by decide +kernel, by decide +kernel, by decide +kernel,
    by decide +kernel⟩
  busy := rfl
  running := by decide +kernel
  dir := rfl
  idle := by decide +kernel
  pend := by decide +kernel
  calm := rfl

/-- DECB of one block, just accepted. -/
def decbAccepted : State := running 4 [0]

theorem decbAccepted_justAccepted : JustAccepted .decb .dec decbAccepted where
  inv := ⟨by decide +kernel, by decide +kernel, by decide +kernel, by decide +kernel, by decide +kernel,
    by decide +kernel⟩
  busy := rfl
  running := by decide +kernel
  dir := rfl
  idle := by decide +kernel
  pend := by decide +kernel
  calm := rfl

/-- The same while the HOST polls, touches the bytes next to both buffers, reads the source and writes registers. -/
def decbWatched : State :=
  { decbAccepted with
      script := [.rd 1, .wm 16 7, .wm 31 7, .wm 48 7, .rm 0, .rm 31, .wr 2 9, .wait]
      sched := [.host, .host, .host, .host, .host, .host, .host, .host] }

theorem decbWatched_justAccepted : JustAccepted .decb .dec decbWatched where
  inv := ⟨by decide +kernel, by decide +kernel, by decide +kernel, by decide +kernel, by decide +kernel,
    by decide +kernel⟩
  busy := rfl
  running := by decide +kernel
  dir := rfl
  idle := by decide +kernel
  pend := by decide +kernel
  calm := rfl

/-- Every transaction of the script leaves the running command alone. -/
abbrev QuietScript (i : Instr) (s : State) : Prop :=
  ∀ x ∈ s.script, quietTxn s.src s.dst (16 * blockCount i s.len) x = true

theorem test_interfering_transactions_are_not_quiet :
    ([.wm 0 1, .wm 15 1, .wm 32 1, .wm 47 1, .rm 32, .rm 47, .wr 0 3, .wr 5 1] : List HostTxn).all
      (fun x => !quietTxn 0 32 16 x) = true := by decide +kernel

theorem witness_EveryScheduleGivesTheNetEffect :
    (JustAccepted .dec .dec decOfNothing ∧ QuietScript .dec decOfNothing ∧ NoReset decOfNothing ∧
      ∃ t, core.run 1 decOfNothing = .next t ∧ t.busy = false) ∧
    (JustAccepted .decb .dec decbWatched ∧ QuietScript .decb decbWatched ∧ NoReset decbWatched ∧
      ∃ t, core.run 44 decbWatched = .next t ∧ t.busy = false) :=
  ⟨⟨decOfNothing_justAccepted, by decide +kernel, by decide +kernel, _, next_of_isNext keyed (by decide +kernel),
      by decide +kernel⟩,
    decbWatched_justAccepted, by decide +kernel, by decide +kernel, _, next_of_isNext keyed (by decide +kernel),
    by decide +kernel⟩

theorem witness_AbortLeavesWholeBlocks :
    (JustAccepted .enc .enc (encAccepted true) ∧
      (∀ x ∈ (encAccepted true).script, ∃ w, x = .wr 5 w) ∧ NoReset (encAccepted true) ∧
      ∃ t, core.run 2 (encAccepted true) = .next t) ∧
    (JustAccepted .decb .dec decbWatched ∧ QuietScript .decb decbWatched ∧ NoReset decbWatched ∧
      ∃ t, core.run 2 decbWatched = .next t) :=
  ⟨⟨encAccepted_justAccepted _, fun _ hx => ⟨1, List.mem_singleton.1 hx⟩, by decide +kernel, _,
      next_of_isNext keyed (by decide +kernel)⟩,
    decbWatched_justAccepted, by decide +kernel, by decide +kernel, _, next_of_isNext keyed (by decide +kernel)⟩

theorem witness_CipherCommandsEnd :
    (JustAccepted .enc .enc (encAccepted false) ∧ (encAccepted false).sched = []) ∧
    (JustAccepted .dec .dec decOfNothing ∧ decOfNothing.sched = []) :=
  ⟨⟨encAccepted_justAccepted _, rfl⟩, decOfNothing_justAccepted, rfl⟩

/-- KEYED, idle, with the HOST to run one pseudo-instruction. -/
def scripted (p : Pseudo) : State := { keyed with script := scriptTxns (pseudoStmts p) }

theorem witness_BlockScriptsTransformOneBlock :
    (Inv (scripted (.encb 0 0xFF0)) ∧ (scripted (.encb 0 0xFF0)).busy = false ∧ (scripted (.encb 0 0xFF0)).sched = [] ∧
      (scripted (.encb 0 0xFF0)).lutV = true ∧ (0 : Word).toNat + 16 ≤ keyed.memBytes ∧
      (0xFF0 : Word).toNat + 16 ≤ keyed.memBytes ∧ aliasLegal 0 0xFF0 16) ∧
    (Inv (scripted (.decb 0 0)) ∧ (scripted (.decb 0 0)).busy = false ∧ (scripted (.decb 0 0)).sched = [] ∧
      (scripted (.decb 0 0)).invV = true ∧ aliasLegal 0 0 16) :=
  ⟨⟨⟨by decide +kernel, by decide +kernel, by decide +kernel, by decide +kernel, by decide +kernel, by decide +kernel⟩,
      rfl, rfl, rfl, by decide +kernel, by decide +kernel, by decide +kernel⟩,
    ⟨by decide +kernel, by decide +kernel, by decide +kernel, by decide +kernel, by decide +kernel, by decide +kernel⟩,
    rfl, rfl, rfl, by decide +kernel⟩

/-- SEQ's turn while ZERO runs. -/
def zeroTurn : State := turnOf (.seq 0 0) (running 7 [])

theorem witness_TablesChangeOnlyByTheirCommands :
    ∃ t, step zeroTurn = .next t ∧ t.lut ≠ zeroTurn.lut ∧ t.inv ≠ zeroTurn.inv :=
  ⟨_, next_of_isNext keyed (by decide +kernel), by decide +kernel, by decide +kernel⟩

/-- A state in which LUT alone, or INV alone, is valid. -/
theorem lutOnly_inv : Inv { keyed with invV := false } :=
  ⟨by decide +kernel, by decide +kernel, by decide +kernel, by decide +kernel, by decide +kernel, by decide +kernel⟩

theorem invOnly_inv : Inv { keyed with lutV := false } :=
  ⟨by decide +kernel, by decide +kernel, by decide +kernel, by decide +kernel, by decide +kernel, by decide +kernel⟩

theorem witness_InvalidTablesCannotBeRead :
    (Inv { keyed with lutV := false } ∧ ∃ t, step { keyed with lutV := false } = .next t) ∧
    (Inv { keyed with invV := false } ∧ ∃ t, step { keyed with invV := false } = .next t) ∧
    (Inv (asks (.rm 4096) State.reset) ∧ step (asks (.rm 4096) State.reset) = .fault .hostAddress) :=
  ⟨⟨invOnly_inv, _, next_of_isNext keyed (by decide +kernel)⟩, ⟨lutOnly_inv, _, next_of_isNext keyed (by decide +kernel)⟩,
    ⟨by decide +kernel, by decide +kernel, by decide +kernel, by decide +kernel, by decide +kernel, by decide +kernel⟩,
    fault_of_isFault (by decide +kernel)⟩

theorem witness_CommandsBeginAndEndOnlyAsStated :
    (∃ t, step (asks (.wr 0 3) keyed) = .next t ∧ keyed.busy = false ∧ t.busy = true) ∧
    (∃ t, step zeroTurn = .next t ∧ zeroTurn.busy = true ∧ t.busy = false) ∧
    (∃ t, step (turnOf .reset (running 5 [1])) = .next t ∧ (running 5 [1]).busy = true ∧ t.busy = false) ∧
    (∃ t, step (asks (.wr 5 1) (running 5 [1])) = .next t ∧ (running 5 [1]).busy = true ∧ t.busy = false) :=
  ⟨⟨_, next_of_isNext keyed (by decide +kernel), rfl, by decide +kernel⟩,
    ⟨_, next_of_isNext keyed (by decide +kernel), rfl, by decide +kernel⟩,
    ⟨_, next_of_isNext keyed (by decide +kernel), rfl, by decide +kernel⟩,
    _, next_of_isNext keyed (by decide +kernel), rfl, by decide +kernel⟩

theorem witness_WaitPollsStatusUntilIdle :
    HostTurn (asks .wait keyed) .wait [] ∧ HostTurn (asks .wait (running 5 [1])) .wait [] := by decide +kernel

theorem witness_MovesThatAreNotEnabledChangeNothing :
    (profileOf .zero ≠ none ∧ (running 5 [1]).busy = true ∧ (running 5 [1]).running ≠ some .zero) ∧
    ((running 5 [1]).running = some .enc ∧ (running 5 [1]).pend ≠ [] ∧
      (running 5 [1]).sel.blk ∉ (running 5 [1]).pend) ∧
    ((withLane (.pack (regs .enc 0))).pend ≠ [] ∧ (withLane (.pack (regs .enc 0))).lanes[0]? ≠ some .idle) ∧
    (({ withLane (.pack (regs .enc 0)) with pend := [] }).pend = [] ∧
      ∃ l ∈ (withLane (.pack (regs .enc 0))).lanes, l ≠ .idle) ∧
    (decode (.ph 2) = .ok .ltr ∧ ∀ l, (withLane (.pack (regs .enc 0))).lanes[0]? = some l → l.phase ≠ 2) := by
  refine ⟨by decide +kernel, by decide +kernel, by decide +kernel,
    ⟨rfl, .pack (regs .enc 0), by decide +kernel, by decide +kernel⟩, rfl, ?_⟩
  rintro l h
  cases h
  decide

end Sys2Proof.Tests
end

section
/-! PROOFS. A table that is not valid cannot be read (R28, R41, R281). The two tables are treated as one, named by the
direction that uses it: LUT by encryption, INV by decryption (R150). The idea: a table whose flag is 0 is needed by no
running command and used by no lane (`AtRest`, from `Inv`), so every operation either leaves it out of what it computes
or writes it over whole. The one operation that starts from a table's old bytes is DERINV, and it overwrites all of
them, because it runs only over a permutation. -/

namespace Sys2Proof.Machine

/-! ### One of the two tables -/

/-- `s` with other bytes in the table that direction `d` uses. -/
def State.withTable (d : Dir) (x : Table) (s : State) : State :=
  { s with
      lut := match d with | .enc => x | .dec => s.lut
      inv := match d with | .enc => s.inv | .dec => x }

/-- The validity flag of the table that direction `d` uses (R28). -/
def State.tableValid (d : Dir) (s : State) : Bool :=
  match d with
  | .enc => s.lutV
  | .dec => s.invV

/-- The need, in the table of R93, of a command that uses the table of direction `d`. -/
def needOf : Dir → TableNeed
  | .enc => .lut
  | .dec => .inv

section
variable (d : Dir) (x : Table) (s : State)

theorem withTable_enc : s.withTable .enc x = { s with lut := x } := rfl
theorem withTable_dec : s.withTable .dec x = { s with inv := x } := rfl

@[simp] theorem withTable_busy : (s.withTable d x).busy = s.busy := rfl
@[simp] theorem withTable_cmd : (s.withTable d x).cmd = s.cmd := rfl
@[simp] theorem withTable_running : (s.withTable d x).running = s.running := rfl
@[simp] theorem withTable_selLane : (s.withTable d x).selLane = s.selLane := rfl
@[simp] theorem withTable_script : (s.withTable d x).script = s.script := rfl
@[simp] theorem withTable_entAns : (s.withTable d x).entAns = s.entAns := rfl
@[simp] theorem withTable_entScript : (s.withTable d x).entScript = s.entScript := rfl
@[simp] theorem withTable_memBytes : (s.withTable d x).memBytes = s.memBytes := rfl
@[simp] theorem withTable_contested : (s.withTable d x).contested = s.contested := rfl
@[simp] theorem withTable_inSource (a : Nat) : (s.withTable d x).inSource a = s.inSource a := rfl
@[simp] theorem withTable_inDest (a : Nat) : (s.withTable d x).inDest a = s.inDest a := rfl
@[simp] theorem withTable_pend : (s.withTable d x).pend = s.pend := rfl
@[simp] theorem withTable_sel : (s.withTable d x).sel = s.sel := rfl
@[simp] theorem withTable_dst : (s.withTable d x).dst = s.dst := rfl
@[simp] theorem withTable_turn : (s.withTable d x).turn = s.turn := rfl
@[simp] theorem withTable_popTurn : (s.withTable d x).popTurn = s.popTurn.withTable d x := rfl

@[simp] theorem withTable_tableOf_self : s.withTable d (s.tableOf d) = s := by cases d <;> rfl

theorem tableOf_withTable_of_ne {d d' : Dir} (h : d' ≠ d) : (s.withTable d x).tableOf d' = s.tableOf d' := by
  cases d with
  | enc =>
    cases d' with
    | enc => exact absurd rfl h
    | dec => rfl
  | dec =>
    cases d' with
    | enc => rfl
    | dec => exact absurd rfl h

theorem needOf_met (d : Dir) : (needOf d).met s.keyFlags = s.tableValid d := by cases d <;> rfl

/-- A cipher command needs the table of its direction (R93, R185). -/
theorem needs_of_dirOf? {i : Instr} {p : Profile} (hd : dirOf? i = some d) (hp : profileOf i = some p) :
    p.needs = needOf d := by
  cases i <;> cases hd <;> cases hp <;> rfl

end

/-! ### Outcomes that agree but for the bytes of an invalid table -/

/-- The second outcome is the first, but for the bytes that the table of `d` holds after it while not valid. -/
inductive AlikeBut (d : Dir) : Result State → Result State → Prop
  | next (t : State) (y : Table) (h : t.tableValid d = true → y = t.tableOf d) :
      AlikeBut d (.next t) (.next (t.withTable d y))
  | fault (f : Fault) : AlikeBut d (.fault f) (.fault f)
  | refused (r : Refusal) : AlikeBut d (.refused r) (.refused r)

namespace AlikeBut

variable {d : Dir}

theorem refl : ∀ o, AlikeBut d o o
  | .next t => by simpa using AlikeBut.next (d := d) t (t.tableOf d) fun _ => rfl
  | .fault f => .fault f
  | .refused r => .refused r

theorem of_invalid {t : State} (y : Table) (h : t.tableValid d = false) :
    AlikeBut d (.next t) (.next (t.withTable d y)) :=
  .next t y fun hv => by simp [h] at hv

theorem ite {P : Prop} [Decidable P] {a a' b b' : Result State} (ha : P → AlikeBut d a a')
    (hb : ¬ P → AlikeBut d b b') : AlikeBut d (if P then a else b) (if P then a' else b') := by
  by_cases h : P
  · simpa only [if_pos h] using ha h
  · simpa only [if_neg h] using hb h

theorem exists_next {t : State} {o' : Result State} (h : AlikeBut d (.next t) o') :
    ∃ y, o' = .next (t.withTable d y) ∧ (t.tableValid d = true → y = t.tableOf d) := by
  cases h with
  | next _ y hy => exact ⟨y, rfl, hy⟩

theorem eq_fault {f : Fault} {o' : Result State} (h : AlikeBut d (.fault f) o') : o' = .fault f := by
  cases h with
  | fault _ => rfl

end AlikeBut

/-! ### A table at rest -/

/-- The table of `d` is not valid, the running command does not need it, and no lane uses it. -/
structure AtRest (d : Dir) (s : State) : Prop where
  invalid : s.tableValid d = false
  notNeeded : ∀ i p, s.busy = true → s.running = some i → profileOf i = some p → p.needs ≠ needOf d
  notUsed : ∀ l ∈ s.lanes, ∀ r ∈ l.regs?, r.dir ≠ d

/-- The running command is a command of the table of R93. -/
theorem profileOf_of_running {s : State} {i : Instr} (h : s.running = some i) : ∃ p, profileOf i = some p := by
  unfold State.running at h
  cases hd : decode (.cmdw s.cmd) with
  | ok j =>
    obtain rfl : j = i := by simpa [hd] using h
    exact profileOf_of_cmdw hd
  | error e => simp [hd] at h

/-- What is checked at issue stays true while the command runs (R28, R245): a table that is not valid is at rest. -/
theorem Inv.atRest {d : Dir} {s : State} (h : Inv s) (hv : s.tableValid d = false) : AtRest d s := by
  obtain ⟨hidle, hbusy⟩ := h.busy
  have notNeeded : ∀ i p, s.busy = true → s.running = some i → profileOf i = some p → p.needs ≠ needOf d := by
    intro i p hb hr hp hn
    obtain ⟨hissue, -⟩ := (hbusy hb).2 i hr p hp
    obtain ⟨-, hkey, -⟩ := (issueError_eq_none_iff p s).1 hissue
    exact hkey (by rw [keyMissing, hn, needOf_met, hv])
  refine ⟨hv, notNeeded, fun l hl r hr hd => ?_⟩
  cases hb : s.busy with
  | false =>
    obtain ⟨hall, -⟩ := hidle hb
    rw [(allIdle_iff s).1 hall l hl] at hr
    cases hr
  | true =>
    obtain ⟨hsome, hok⟩ := hbusy hb
    obtain ⟨i, hi⟩ := Option.isSome_iff_exists.1 hsome
    obtain ⟨p, hp⟩ := profileOf_of_running hi
    obtain ⟨-, -, -, -, hdir, -⟩ := hok i hi p hp
    exact notNeeded i p hb hi hp (needs_of_dirOf? d (hd ▸ hdir l hl r hr) hp)

namespace AtRest

variable {d : Dir} {s : State} (h : AtRest d s) (x : Table)
include h

/-- A step that changes nothing treats both states alike. -/
theorem unread : AlikeBut d (.next s) (.next (s.withTable d x)) := .of_invalid x h.invalid

/-- A lane looks up in the other table only. -/
theorem tableOf_withTable {l : Lane} {r : LaneRegs} (hl : s.selLane = some l) (hr : r ∈ l.regs?) :
    (s.withTable d x).tableOf r.dir = s.tableOf r.dir :=
  tableOf_withTable_of_ne x s (h.notUsed l (List.mem_of_getElem? hl) r hr)

/-- No command that needs the table is running. -/
theorem not_running {i : Instr} {p : Profile} (hb : s.busy = true) (hp : profileOf i = some p)
    (hn : p.needs = needOf d) : s.running ≠ some i :=
  fun hr => h.notNeeded i p hb hr hp hn

end AtRest

/-! ### The shared operations -/

theorem engineWrite_withTable (d : Dir) (x : Table) (a : Nat) (bytes : List Byte) (s : State) :
    engineWrite a bytes (s.withTable d x) = (engineWrite a bytes s).withTable d x := rfl

theorem setSelLane_withTable (d : Dir) (x : Table) (l : Lane) (s : State) :
    (s.withTable d x).setSelLane l = (s.setSelLane l).withTable d x := rfl

@[simp] theorem engineWrite_tableValid (d : Dir) (a : Nat) (bytes : List Byte) (s : State) :
    (engineWrite a bytes s).tableValid d = s.tableValid d := rfl

@[simp] theorem setSelLane_tableValid (d : Dir) (l : Lane) (s : State) :
    (s.setSelLane l).tableValid d = s.tableValid d := rfl

/-- A load takes its 256 bytes from MEM. -/
theorem loadTable_withTable (d : Dir) (x : Table) (s : State) : loadTable (s.withTable d x) = loadTable s := by
  unfold loadTable
  rfl

theorem dispatch_withTable (d d' : Dir) (x : Table) (s : State) :
    dispatch d' (s.withTable d x) = (dispatch d' s).withTable d x := by
  unfold dispatch
  rw [withTable_sel, withTable_pend, withTable_selLane]
  split <;> rfl

theorem dispatch_invalid {d : Dir} {s : State} (d' : Dir) (h : s.tableValid d = false) :
    (dispatch d' s).tableValid d = false := by
  rcases dispatch_cases d' s with ⟨-, -, e⟩ | ⟨-, e⟩
  · rw [e]
    exact h
  · rwa [e]

theorem complete_tableValid {d : Dir} {i : Instr} {s : State} (hi : okFlags i s.keyFlags = s.keyFlags) :
    (complete i s).tableValid d = s.tableValid d := by
  unfold complete
  rw [hi]
  rfl

theorem lutAny_withTable (d : Dir) (x : Table) (s : State) :
    ∃ y, lutAny (s.withTable d x) = (lutAny s).withTable d y := by
  cases d
  · exact ⟨anyTable s.free, rfl⟩
  · exact ⟨x, rfl⟩

theorem invAny_withTable (d : Dir) (x : Table) (s : State) :
    ∃ y, invAny (s.withTable d x) = (invAny s).withTable d y := by
  cases d
  · exact ⟨x, rfl⟩
  · exact ⟨anyTable s.free, rfl⟩

theorem spoilTable_withTable (d : Dir) (x : Table) (i : Option Instr) (s : State) :
    ∃ y, spoilTable i (s.withTable d x) = (spoilTable i s).withTable d y := by
  unfold spoilTable
  split
  · exact lutAny_withTable d x s
  · exact lutAny_withTable d x s
  · exact invAny_withTable d x s
  · exact invAny_withTable d x s
  · exact ⟨x, rfl⟩

theorem spoilTable_tableValid (d : Dir) (i : Option Instr) (s : State) :
    (spoilTable i s).tableValid d = s.tableValid d := by
  rcases spoilTable_cases i s with ⟨-, e⟩ | ⟨-, e⟩ | ⟨-, e⟩ <;> rw [e] <;> rfl

/-- An abort spoils a table without reading it (R224). -/
theorem abortRunning_withTable (d : Dir) (x : Table) (s : State) :
    ∃ y, abortRunning (s.withTable d x) = (abortRunning s).withTable d y := by
  obtain ⟨y, e⟩ := spoilTable_withTable d x s.running (stopLanes s)
  exact ⟨y, congrArg (runError .aborted) e⟩

theorem abortRunning_invalid {d : Dir} {s : State} (h : s.tableValid d = false) :
    (abortRunning s).tableValid d = false :=
  (spoilTable_tableValid d s.running (stopLanes s)).trans h

/-- ENT's turn concerns no table. -/
theorem entStep_withTable (d : Dir) (x : Table) (s : State) :
    entStep (s.withTable d x) = (entStep s).withTable d x := by
  unfold entStep
  rw [withTable_busy, withTable_running, withTable_entAns, withTable_entScript]
  split
  · split <;> rfl
  · rfl

theorem entStep_invalid {d : Dir} {s : State} (h : s.tableValid d = false) : (entStep s).tableValid d = false := by
  rcases entStep_cases s with ⟨a, rest, -, -, -, -, e⟩ | e
  · rw [e]
    exact h
  · rwa [e]

/-- The reset event keeps nothing of a table (R41, R280). -/
theorem resetEvent_withTable (d : Dir) (x : Table) (s : State) : resetEvent (s.withTable d x) = resetEvent s := by
  cases d <;> rfl

/-! ### Issue and the ends of a command -/

theorem accept_invalid {d : Dir} {s : State} (i : Instr) (h : s.tableValid d = false) :
    (accept i s).tableValid d = false := by
  cases d
  · change (accFlags i s.keyFlags).lutV = false
    unfold accFlags
    split <;> first | rfl | exact h
  · change (accFlags i s.keyFlags).invV = false
    unfold accFlags
    split <;> first | rfl | exact h

/-- The issue of a command reads flags and registers, no table, and makes no table valid (R98, R252). -/
theorem issue_alike {d : Dir} {s : State} (i : Instr) (x : Table) (h : s.tableValid d = false) :
    AlikeBut d (.next (issue i s)) (.next (issue i (s.withTable d x))) := by
  rcases issue_cases i s with ⟨hp, e⟩ | ⟨p, er, hp, he, e⟩ | ⟨p, hp, he, e⟩
  · have e' : issue i (s.withTable d x) = s.withTable d x := by simp [issue, hp]
    rw [e, e']
    exact .of_invalid x h
  · have e' : issue i (s.withTable d x) = (reject er s).withTable d x := issue_of_rejected hp he
    rw [e, e']
    exact .of_invalid x h
  · have e' : issue i (s.withTable d x) = (accept i s).withTable d x := issue_of_accepted hp he
    rw [e, e']
    exact .of_invalid x (accept_invalid i h)

/-- A command treats both states alike when its SEQ step does. -/
theorem command_alike {d : Dir} {s : State} {i : Instr} {work : State → Result State} {x : Table} (h : AtRest d s)
    (hw : s.busy = true → s.running = some i → AlikeBut d (work s) (work (s.withTable d x))) :
    AlikeBut d (command i work s) (command i work (s.withTable d x)) := by
  rcases command_cases i work s with ⟨hb, e⟩ | ⟨hb, hr, e⟩ | ⟨hb, hr, e⟩
  · rw [e, command_of_idle (s := s.withTable d x) i work hb]
    exact issue_alike i x h.invalid
  · rw [e, command_of_running (s := s.withTable d x) work hb hr]
    exact hw hb hr
  · rw [e, command_of_other (s := s.withTable d x) work hb hr]
    exact h.unread x

/-! ### DERINV overwrites every entry of INV (R126) -/

/-- An entry that one of the first `n` iterations writes does not depend on the table they start from. -/
theorem invertSteps_get_congr (t a b : Table) (v : Fin 256) :
    ∀ n, n ≤ 256 → (∃ k : Fin 256, k.val < n ∧ t[k].toNat = v.val) →
      (invertSteps t a n)[v] = (invertSteps t b n)[v]
  | 0, _, ⟨_, hk, _⟩ => absurd hk (Nat.not_lt_zero _)
  | n + 1, hn, ⟨k, hk, hv⟩ => by
    simp only [invertSteps, dif_pos (show n < 256 by omega), Fin.getElem_fin, Vector.getElem_set]
    by_cases hw : t[n].toNat = v.val
    · simp only [if_pos hw]
    · simp only [if_neg hw]
      have hkn : k.val ≠ n := by
        rintro rfl
        exact hw hv
      exact invertSteps_get_congr t a b v n (by omega) ⟨k, by omega, hv⟩

/-- Every value stands somewhere in a permutation. -/
theorem IsPermutation.exists_get {t : Table} (h : IsPermutation t) (v : Byte) : ∃ k : Fin 256, t[k] = v := by
  have hmem : v ∈ t := Vector.mem_toList_iff.1 (List.count_pos_iff.1 (by rw [h v]; exact Nat.one_pos))
  obtain ⟨k, hk, e⟩ := Vector.getElem_of_mem hmem
  exact ⟨⟨k, hk⟩, e⟩

/-- The derivation of the inverse of a permutation does not depend on what INV holds before. -/
theorem invertTable_congr {t : Table} (h : IsPermutation t) (a b : Table) : invertTable t a = invertTable t b := by
  unfold invertTable
  refine Vector.ext fun v hv => ?_
  obtain ⟨k, hk⟩ := IsPermutation.exists_get h (BitVec.ofNat 8 v)
  have hkv : t[k].toNat = v := by rw [hk, BitVec.toNat_ofNat, Nat.mod_eq_of_lt hv]
  exact invertSteps_get_congr t a b ⟨v, hv⟩ 256 le_rfl ⟨k, k.isLt, hkv⟩

/-! ### The SEQ steps -/

section
variable {d : Dir} {s : State} (h : AtRest d s) (x : Table)
include h

theorem execGenlut_alike : AlikeBut d (execGenlut s) (execGenlut (s.withTable d x)) := by
  refine command_alike h fun _ _ => ?_
  unfold genlutWork
  rw [withTable_entAns]
  have hv := h.invalid
  split
  · exact h.unread x
  · cases d
    · exact .refl _
    · exact .of_invalid x hv
  · cases d
    · exact .refl _
    · exact .of_invalid x hv

theorem execDerinv_alike : AlikeBut d (execDerinv s) (execDerinv (s.withTable d x)) := by
  refine command_alike h fun hb hr => ?_
  cases d with
  | enc => exact absurd hr (h.not_running hb rfl rfl)
  | dec =>
    refine AlikeBut.ite (P := IsPermutation s.lut) (fun hp => ?_) (fun _ => .refl _)
    rw [invertTable_congr hp s.inv (s.withTable .dec x).inv]
    exact .refl _

theorem execZero_alike : AlikeBut d (execZero s) (execZero (s.withTable d x)) := by
  refine command_alike h fun _ _ => ?_
  cases d <;> exact .refl _

theorem execLdlut_alike : AlikeBut d (execLdlut s) (execLdlut (s.withTable d x)) := by
  refine command_alike h fun _ _ => AlikeBut.ite (P := s.holds s.src.toNat 256) (fun _ => ?_) fun _ => .fault _
  rw [loadTable_withTable]
  have hv := h.invalid
  cases d
  · exact .refl _
  · exact .of_invalid x hv

theorem execLdinv_alike : AlikeBut d (execLdinv s) (execLdinv (s.withTable d x)) := by
  refine command_alike h fun _ _ => AlikeBut.ite (P := s.holds s.src.toNat 256) (fun _ => ?_) fun _ => .fault _
  rw [loadTable_withTable]
  have hv := h.invalid
  cases d
  · exact .of_invalid x hv
  · exact .refl _

theorem execRdlut_alike : AlikeBut d (execRdlut s) (execRdlut (s.withTable d x)) := by
  refine command_alike h fun hb hr => ?_
  cases d with
  | enc => exact absurd hr (h.not_running hb rfl rfl)
  | dec => exact AlikeBut.ite (P := s.holds s.dst.toNat 256) (fun _ => .of_invalid x h.invalid) fun _ => .fault _

theorem execRdinv_alike : AlikeBut d (execRdinv s) (execRdinv (s.withTable d x)) := by
  refine command_alike h fun hb hr => ?_
  cases d with
  | enc => exact AlikeBut.ite (P := s.holds s.dst.toNat 256) (fun _ => .of_invalid x h.invalid) fun _ => .fault _
  | dec => exact absurd hr (h.not_running hb rfl rfl)

/-- SEQ's step of a cipher command reads no table, and its completion sets no flag (R28, R202, R203). -/
theorem cipherWork_alike {i : Instr} (d' : Dir) (hi : ∀ f, okFlags i f = f) :
    AlikeBut d (cipherWork i d' s) (cipherWork i d' (s.withTable d x)) := by
  refine AlikeBut.ite (P := s.pend ≠ []) (fun _ => ?_) fun _ =>
    AlikeBut.ite (P := s.allIdle = true) (fun _ => .of_invalid x ?_) fun _ => h.unread x
  · rw [dispatch_withTable]
    exact .of_invalid x (dispatch_invalid d' h.invalid)
  · rw [complete_tableValid (hi _)]
    exact h.invalid

/-! ### Control requests -/

theorem execAbort_alike (c : Bool) : AlikeBut d (execAbort c s) (execAbort c (s.withTable d x)) := by
  refine AlikeBut.ite (P := s.busy = true) (fun _ => ?_) fun _ => ?_
  · refine AlikeBut.ite (P := s.running = some .zero) (fun _ => h.unread x) fun _ => ?_
    obtain ⟨y, e⟩ := abortRunning_withTable d x s
    rw [e]
    exact .of_invalid y (abortRunning_invalid h.invalid)
  · exact AlikeBut.ite (fun _ => .of_invalid x h.invalid) fun _ => h.unread x

theorem execClr_alike : AlikeBut d (execClr s) (execClr (s.withTable d x)) :=
  AlikeBut.ite (P := s.busy = true) (fun _ => h.unread x) fun _ => .of_invalid x h.invalid

/-! ### The micro-operations -/

/-- A lane that looks up in the table of its direction does so alike, since that is the other table (R150). -/
theorem tableLane_alike {l : Lane} {r : LaneRegs} (hl : s.selLane = some l) (hr : r ∈ l.regs?) (f : Table → Lane) :
    AlikeBut d (.next (s.setSelLane (f (s.tableOf r.dir))))
      (.next ((s.withTable d x).setSelLane (f ((s.withTable d x).tableOf r.dir)))) := by
  rw [h.tableOf_withTable x hl hr]
  exact .of_invalid x h.invalid

theorem execPack_alike : AlikeBut d (execPack s) (execPack (s.withTable d x)) := by
  unfold execPack
  rw [withTable_selLane]
  split
  · next r _ =>
    exact AlikeBut.ite (P := s.holds (blockAddr s.src r.blk) 16) (fun _ => .of_invalid x h.invalid) fun _ => .fault _
  · exact h.unread x

theorem execLtr_alike : AlikeBut d (execLtr s) (execLtr (s.withTable d x)) := by
  unfold execLtr
  rw [withTable_selLane]
  split
  · next r rows hl => exact tableLane_alike h x hl rfl fun t => .run (afterLtr r.dir) r (ltrRows t rows)
  · exact h.unread x

theorem execArc_alike : AlikeBut d (execArc s) (execArc (s.withTable d x)) := by
  unfold execArc
  rw [withTable_selLane]
  split
  · exact .of_invalid x h.invalid
  · exact h.unread x

theorem execCs_alike : AlikeBut d (execCs s) (execCs (s.withTable d x)) := by
  unfold execCs
  rw [withTable_selLane]
  split
  · next r rows hl => exact tableLane_alike h x hl rfl fun t => .run (afterCs r.dir) r (csRows t rows)
  · exact h.unread x

theorem execRtl_alike : AlikeBut d (execRtl s) (execRtl (s.withTable d x)) := by
  unfold execRtl
  rw [withTable_selLane]
  split
  · next r rows hl => exact tableLane_alike h x hl rfl fun t => afterRtl r (rtlRows t rows)
  · exact h.unread x

theorem execUnpack_alike : AlikeBut d (execUnpack s) (execUnpack (s.withTable d x)) := by
  unfold execUnpack
  rw [withTable_selLane]
  split
  · next r _ _ =>
    refine AlikeBut.ite (P := s.holds (blockAddr s.dst r.blk) 16) (fun _ => ?_) fun _ => .fault _
    rw [withTable_dst, engineWrite_withTable, setSelLane_withTable]
    exact .of_invalid x (by simpa using h.invalid)
  · exact h.unread x

/-- No instruction reads a table at rest. -/
theorem exec_alike (i : Instr) : AlikeBut d (exec i s) (exec i (s.withTable d x)) := by
  cases i with
  | genlut => exact execGenlut_alike h x
  | derinv => exact execDerinv_alike h x
  | encb => exact command_alike h fun _ _ => cipherWork_alike h x .enc fun _ => rfl
  | decb => exact command_alike h fun _ _ => cipherWork_alike h x .dec fun _ => rfl
  | enc => exact command_alike h fun _ _ => cipherWork_alike h x .enc fun _ => rfl
  | dec => exact command_alike h fun _ _ => cipherWork_alike h x .dec fun _ => rfl
  | zero => exact execZero_alike h x
  | ldlut => exact execLdlut_alike h x
  | ldinv => exact execLdinv_alike h x
  | rdlut => exact execRdlut_alike h x
  | rdinv => exact execRdinv_alike h x
  | abort c => exact execAbort_alike h x c
  | clr => exact execClr_alike h x
  | pack => exact execPack_alike h x
  | ltr => exact execLtr_alike h x
  | arc => exact execArc_alike h x
  | cs => exact execCs_alike h x
  | rtl => exact execRtl_alike h x
  | unpack => exact execUnpack_alike h x

end

/-! ### The agents' moves -/

/-- What a move comes to: the instruction's outcome, or the one already there. -/
def Move.outcome : Move → Result State
  | .run i s => exec i s
  | .over o => o

theorem step_eq_outcome (s : State) : step s = (nextMove s).outcome := by
  unfold step
  cases nextMove s <;> rfl

theorem operandWrite_withTable (d : Dir) (x : Table) (n : Nat) (w : Word) (s : State) :
    operandWrite n w (s.withTable d x) = (operandWrite n w s).withTable d x := by
  unfold operandWrite
  split <;> rfl

theorem operandWrite_invalid {d : Dir} {s : State} (n : Nat) (w : Word) (h : s.tableValid d = false) :
    (operandWrite n w s).tableValid d = false := by
  unfold operandWrite
  split <;> exact h

theorem regRead_withTable (d : Dir) (x : Table) (n : Nat) (s : State) : regRead n (s.withTable d x) = regRead n s := by
  unfold regRead
  split <;> rfl

section
variable {d : Dir} {s : State} (h : AtRest d s) (x : Table)
include h

theorem hostWrite_alike (n : Nat) (w : Word) :
    AlikeBut d (hostWrite n w s).outcome (hostWrite n w (s.withTable d x)).outcome := by
  unfold hostWrite
  rw [withTable_busy, operandWrite_withTable]
  split
  · split
    · exact h.unread x
    · split
      · exact exec_alike h x _
      · exact .of_invalid x h.invalid
  · split
    · split
      · exact exec_alike h x _
      · exact h.unread x
    · split
      · exact h.unread x
      · exact .of_invalid x (operandWrite_invalid n w h.invalid)

theorem hostMemWrite_alike (a : Nat) (b : Byte) :
    AlikeBut d (hostMemWrite a b s) (hostMemWrite a b (s.withTable d x)) := by
  unfold hostMemWrite
  rw [withTable_memBytes, withTable_inSource, withTable_inDest]
  split
  · exact .fault _
  · split
    · exact .of_invalid x h.invalid
    · exact .of_invalid x h.invalid

theorem hostMemRead_alike (a : Nat) : AlikeBut d (hostMemRead a s) (hostMemRead a (s.withTable d x)) := by
  unfold hostMemRead
  rw [withTable_memBytes, withTable_inDest, withTable_contested]
  split
  · exact .fault _
  · split
    · exact .of_invalid x h.invalid
    · exact .of_invalid x h.invalid

/-- The rest of the script is no part of what keeps a table at rest. -/
theorem AtRest.withScript (rest : List HostTxn) : AtRest d { s with script := rest } :=
  ⟨h.invalid, h.notNeeded, h.notUsed⟩

theorem hostMove_alike : AlikeBut d (hostMove s).outcome (hostMove (s.withTable d x)).outcome := by
  unfold hostMove
  rw [withTable_script]
  split
  · exact h.unread x
  · next rest _ => exact hostWrite_alike (h.withScript rest) x _ _
  · rw [regRead_withTable]
    exact .of_invalid x h.invalid
  · next rest _ => exact hostMemWrite_alike (h.withScript rest) x _ _
  · next rest _ => exact hostMemRead_alike (h.withScript rest) x _
  · exact .of_invalid x h.invalid

theorem seqMove_alike : AlikeBut d (seqMove s).outcome (seqMove (s.withTable d x)).outcome := by
  unfold seqMove
  rw [withTable_busy, withTable_cmd]
  split
  · split
    · exact exec_alike h x _
    · exact h.unread x
  · exact h.unread x

theorem laneMove_alike : AlikeBut d (laneMove s).outcome (laneMove (s.withTable d x)).outcome := by
  unfold laneMove
  rw [withTable_selLane]
  split
  · split
    · exact exec_alike h x _
    · exact h.unread x
  · exact h.unread x

/-- Taking the turn from the schedule, with its choices, leaves a table at rest. -/
theorem AtRest.popTurn (c : Selection) : AtRest d { s.popTurn with sel := c } :=
  ⟨h.invalid, h.notNeeded, h.notUsed⟩

/-- A step reads no table at rest. -/
theorem step_alike : AlikeBut d (step s) (step (s.withTable d x)) := by
  simp only [step_eq_outcome, nextMove, withTable_turn, withTable_popTurn]
  split
  · exact hostMove_alike (h.popTurn s.sel) x
  · next k l _ => exact seqMove_alike (h.popTurn ⟨k, l⟩) x
  · next l _ => exact laneMove_alike (h.popTurn ⟨s.sel.blk, l⟩) x
  · rw [entStep_withTable]
    exact .of_invalid x (entStep_invalid h.invalid)
  · rw [resetEvent_withTable]
    exact .refl _

end

/-- Settles O56: a table that is not valid is at rest, and a step reads no table at rest. -/
theorem invalidTablesCannotBeRead : Obligations.InvalidTablesCannotBeRead := by
  intro s x hinv
  refine ⟨fun hv => ?_, fun hv => ?_⟩
  · have halike := step_alike (Inv.atRest (d := .enc) hinv hv) x
    exact ⟨fun t ht => (ht ▸ halike).exists_next, fun f hf => (hf ▸ halike).eq_fault⟩
  · have halike := step_alike (Inv.atRest (d := .dec) hinv hv) x
    exact ⟨fun t ht => (ht ▸ halike).exists_next, fun f hf => (hf ▸ halike).eq_fault⟩

end Sys2Proof.Machine
end

section
/-! PROOFS. What an instruction, a HOST transaction and a step can do, said once: each has an inductive list of its
effects, and a lemma that every outcome is on the list. The facts about all steps that come after it are proved by
cases over these lists. -/

namespace Sys2Proof.Machine

/-- The table that a table command writes, named by the direction that uses it (R121, R126, R128, R129). -/
def tableOut? : Instr → Option Dir
  | .genlut | .ldlut => some .enc
  | .derinv | .ldinv => some .dec
  | _ => none

/-- What instruction `i` can do to `s`. -/
inductive Effect (i : Instr) (s : State) : State → Prop
  | unchanged : Effect i s s
  | rejected (e : ECode) (hb : s.busy = false) (he : e ≠ .none) : Effect i s (reject e s)
  | accepted (p : Profile) (hb : s.busy = false) (hp : profileOf i = some p) (he : issueError p s = none) :
      Effect i s (accept i s)
  /-- A block goes to an idle lane (R202). -/
  | dispatched (d : Dir) (hb : s.busy = true) (hr : s.running = some i) (hd : dirOf? i = some d)
      (hk : s.sel.blk ∈ s.pend) (hl : s.selLane = some .idle) :
      Effect i s ({ s with pend := s.pend.erase s.sel.blk }.setSelLane (activate d s.sel.blk))
  /-- A cipher command completes (R203). -/
  | finished (d : Dir) (hb : s.busy = true) (hr : s.running = some i) (hd : dirOf? i = some d) (hp : s.pend = [])
      (ha : s.allIdle = true) : Effect i s (complete i s)
  | tableWritten (d : Dir) (x : Table) (n : Nat) (hb : s.busy = true) (hr : s.running = some i)
      (hi : tableOut? i = some d) : Effect i s (complete i ({ s with free := n }.withTable d x))
  /-- A table command ends with a run-time error (R255). -/
  | tableFailed (d : Dir) (e : ECode) (x : Table) (n : Nat) (hb : s.busy = true) (hr : s.running = some i)
      (hi : tableOut? i = some d) (he : e ≠ .none) : Effect i s (runError e ({ s with free := n }.withTable d x))
  | zeroed (hb : s.busy = true) (hr : s.running = some i) (hi : i = .zero) :
      Effect i s (complete i { s with lut := zeroTable, inv := zeroTable })
  /-- A table goes to MEM (R130, R131). -/
  | stored (x : Table) (hb : s.busy = true) (hr : s.running = some i) (hi : i = .rdlut ∨ i = .rdinv)
      (ha : s.holds s.dst.toNat 256) : Effect i s (complete i (storeTable x s))
  | aborted (c : Bool) (hi : i = .abort c) (hb : s.busy = true) : Effect i s (abortRunning s)
  | cleared (hb : s.busy = false) : Effect i s (clearStatus s)
  /-- An active lane goes to its next phase with the same direction and block (R186). -/
  | laneMoved (l l' : Lane) (r r' : LaneRegs) (n : Nat) (hl : s.selLane = some l) (hr : l.regs? = some r)
      (hr' : l'.regs? = some r') (hd : r'.dir = r.dir) (hk : r'.blk = r.blk) :
      Effect i s ({ s with free := n }.setSelLane l')
  /-- A lane writes its block and becomes idle (R152, R186). -/
  | laneDone (l : Lane) (r : LaneRegs) (a : Nat) (bytes : List Byte) (hl : s.selLane = some l) (hr : l.regs? = some r)
      (ha : s.holds a bytes.length) : Effect i s ((engineWrite a bytes s).setSelLane .idle)

/-! ### The commands -/

theorem issue_effect (i : Instr) (s : State) (hb : s.busy = false) : Effect i s (issue i s) := by
  rcases issue_cases i s with ⟨-, e⟩ | ⟨p, er, -, he, e⟩ | ⟨p, hp, he, e⟩
  · rw [e]
    exact .unchanged
  · rw [e]
    refine .rejected er hb ?_
    rintro rfl
    rcases issueError_cases p s with ⟨-, h⟩ | ⟨-, -, h⟩ | ⟨-, -, -, h⟩ | ⟨-, -, -, -, h⟩ | ⟨-, -, -, -, h⟩ <;>
      cases he.symm.trans h
  · rw [e]
    exact .accepted p hb hp he

theorem command_effect {i : Instr} {work : State → Result State} {s t : State} (h : command i work s = .next t)
    (hw : s.busy = true → s.running = some i → work s = .next t → Effect i s t) : Effect i s t := by
  rcases command_cases i work s with ⟨hb, e⟩ | ⟨hb, hr, e⟩ | ⟨-, -, e⟩
  · cases e.symm.trans h
    exact issue_effect i s hb
  · exact hw hb hr (e.symm.trans h)
  · cases e.symm.trans h
    exact .unchanged

theorem cipherCommand_effect {i : Instr} {d : Dir} {s t : State} (hd : dirOf? i = some d)
    (h : command i (cipherWork i d) s = .next t) : Effect i s t := by
  refine command_effect h fun hb hr hw => ?_
  rcases cipherWork_cases i d s with ⟨-, e⟩ | ⟨hp, ha, e⟩ | ⟨-, -, e⟩
  · cases e.symm.trans hw
    rcases dispatch_cases d s with ⟨hk, hl, e⟩ | ⟨-, e⟩
    · rw [e]
      exact .dispatched d hb hr hd hk hl
    · rw [e]
      exact .unchanged
  · cases e.symm.trans hw
    exact .finished d hb hr hd hp ha
  · cases e.symm.trans hw
    exact .unchanged

section
variable {s t : State}

theorem execGenlut_effect (h : execGenlut s = .next t) : Effect .genlut s t := by
  refine command_effect h fun hb hr hw => ?_
  unfold genlutWork at hw
  split at hw
  · cases hw
    exact .unchanged
  · cases hw
    exact .tableFailed .enc .entropyUnavailable (anyTable s.free) (s.free + Config.tableLen) hb hr rfl (by decide)
  · cases hw
    exact .tableWritten .enc _ s.free hb hr rfl

theorem execDerinv_effect (h : execDerinv s = .next t) : Effect .derinv s t := by
  refine command_effect h fun hb hr hw => ?_
  unfold derinvWork at hw
  split at hw
  · cases hw
    exact .tableWritten .dec _ s.free hb hr rfl
  · cases hw
    exact .tableFailed .dec .invalidLut (anyTable s.free) (s.free + Config.tableLen) hb hr rfl (by decide)

theorem execLdlut_effect (h : execLdlut s = .next t) : Effect .ldlut s t := by
  refine command_effect h fun hb hr hw => ?_
  unfold ldlutWork at hw
  split at hw
  · cases hw
    exact .tableWritten .enc (loadTable s) (afterEngineRead 256 s).free hb hr rfl
  · cases hw

theorem execLdinv_effect (h : execLdinv s = .next t) : Effect .ldinv s t := by
  refine command_effect h fun hb hr hw => ?_
  unfold ldinvWork at hw
  split at hw
  · cases hw
    exact .tableWritten .dec (loadTable s) (afterEngineRead 256 s).free hb hr rfl
  · cases hw

theorem execRdlut_effect (h : execRdlut s = .next t) : Effect .rdlut s t := by
  refine command_effect h fun hb hr hw => ?_
  unfold rdlutWork at hw
  split at hw
  · cases hw
    exact .stored s.lut hb hr (.inl rfl) (by assumption)
  · cases hw

theorem execRdinv_effect (h : execRdinv s = .next t) : Effect .rdinv s t := by
  refine command_effect h fun hb hr hw => ?_
  unfold rdinvWork at hw
  split at hw
  · cases hw
    exact .stored s.inv hb hr (.inr rfl) (by assumption)
  · cases hw

theorem execZero_effect (h : execZero s = .next t) : Effect .zero s t := by
  refine command_effect h fun hb hr hw => ?_
  cases hw
  exact .zeroed hb hr rfl

/-! ### Control requests -/

theorem execAbort_effect {c : Bool} (h : execAbort c s = .next t) : Effect (.abort c) s t := by
  unfold execAbort at h
  split at h
  · split at h
    · cases h
      exact .unchanged
    · cases h
      exact .aborted c rfl (by assumption)
  · split at h
    · cases h
      exact .cleared (by simp_all)
    · cases h
      exact .unchanged

theorem execClr_effect (h : execClr s = .next t) : Effect .clr s t := by
  unfold execClr at h
  split at h
  · cases h
    exact .unchanged
  · cases h
    exact .cleared (by simp_all)

/-! ### The micro-operations -/

theorem execPack_effect (h : execPack s = .next t) : Effect .pack s t := by
  unfold execPack at h
  split at h
  · next r hl =>
    split at h
    · cases h
      exact .laneMoved (.pack r) _ r r (afterEngineRead 16 s).free hl rfl rfl rfl rfl
    · cases h
  · cases h
    exact .unchanged

theorem execLtr_effect (h : execLtr s = .next t) : Effect .ltr s t := by
  unfold execLtr at h
  split at h
  · next r rows hl =>
    cases h
    exact .laneMoved (.run .ltr r rows) _ r r s.free hl rfl rfl rfl rfl
  · cases h
    exact .unchanged

theorem execArc_effect (h : execArc s = .next t) : Effect .arc s t := by
  unfold execArc at h
  split at h
  · next r rows hl =>
    cases h
    exact .laneMoved (.run .arc r rows) _ r r s.free hl rfl rfl rfl rfl
  · cases h
    exact .unchanged

theorem execCs_effect (h : execCs s = .next t) : Effect .cs s t := by
  unfold execCs at h
  split at h
  · next r rows hl =>
    cases h
    exact .laneMoved (.run .cs r rows) _ r r s.free hl rfl rfl rfl rfl
  · cases h
    exact .unchanged

/-- RTL counts the round and keeps direction and block (R186). -/
theorem afterRtl_regs (r : LaneRegs) (rows : Rows) :
    ∃ r', (afterRtl r rows).regs? = some r' ∧ r'.dir = r.dir ∧ r'.blk = r.blk := by
  unfold afterRtl
  split <;> exact ⟨_, rfl, rfl, rfl⟩

theorem execRtl_effect (h : execRtl s = .next t) : Effect .rtl s t := by
  unfold execRtl at h
  split at h
  · next r rows hl =>
    cases h
    obtain ⟨r', hr', hd, hk⟩ := afterRtl_regs r (rtlRows (s.tableOf r.dir) rows)
    exact .laneMoved (.run .rtl r rows) _ r r' s.free hl rfl hr' hd hk
  · cases h
    exact .unchanged

theorem execUnpack_effect (h : execUnpack s = .next t) : Effect .unpack s t := by
  unfold execUnpack at h
  split at h
  · next r rows hl =>
    split at h
    · next ha =>
      cases h
      exact .laneDone (.run .unpack r rows) r _ (unpackRows rows).toList hl rfl (by rwa [Vector.length_toList])
    · cases h
  · cases h
    exact .unchanged

/-- Every outcome of an instruction is on the list. -/
theorem exec_effect {i : Instr} (h : exec i s = .next t) : Effect i s t := by
  cases i with
  | genlut => exact execGenlut_effect h
  | derinv => exact execDerinv_effect h
  | encb => exact cipherCommand_effect (d := .enc) rfl h
  | decb => exact cipherCommand_effect (d := .dec) rfl h
  | enc => exact cipherCommand_effect (d := .enc) rfl h
  | dec => exact cipherCommand_effect (d := .dec) rfl h
  | zero => exact execZero_effect h
  | ldlut => exact execLdlut_effect h
  | ldinv => exact execLdinv_effect h
  | rdlut => exact execRdlut_effect h
  | rdinv => exact execRdinv_effect h
  | abort c => exact execAbort_effect h
  | clr => exact execClr_effect h
  | pack => exact execPack_effect h
  | ltr => exact execLtr_effect h
  | arc => exact execArc_effect h
  | cs => exact execCs_effect h
  | rtl => exact execRtl_effect h
  | unpack => exact execUnpack_effect h

end

/-! ### The HOST's transactions -/

/-- What the HOST's turn can do to `s`. -/
inductive HostEffect (s : State) : State → Prop
  | command (w : Word) (rest : List HostTxn) (i : Instr) (t : State) (hs : s.script = .wr 0 w :: rest)
      (hb : s.busy = false) (hd : decode (.cmdw w) = .ok i) (he : Effect i { s with script := rest } t) :
      HostEffect s t
  | control (w : Word) (rest : List HostTxn) (i : Instr) (t : State) (hs : s.script = .wr 5 w :: rest)
      (hd : decode (.ctrlw w) = .ok i) (he : Effect i { s with script := rest } t) : HostEffect s t
  | illegal (rest : List HostTxn) (hb : s.busy = false) :
      HostEffect s (reject .illegalCommand { s with script := rest })
  | operand (n : Nat) (w : Word) (rest : List HostTxn) (hb : s.busy = false) :
      HostEffect s (operandWrite n w { s with script := rest })
  /-- A transaction that is dropped, or only read. -/
  | answered (rest : List HostTxn) (rs : List Reply) : HostEffect s { s with script := rest, replies := rs }
  /-- The HOST touches a byte of the running command's buffers (R75). -/
  | contested (a : Nat) (rest : List HostTxn) (rs : List Reply) (n : Nat)
      (ha : s.inSource a = true ∨ s.inDest a = true ∨ a ∈ s.contested) :
      HostEffect s { contest a s with script := rest, replies := rs, free := n }
  | wroteByte (a : Nat) (b : Byte) (rest : List HostTxn) (ha : a < s.memBytes) :
      HostEffect s { s with mem := s.mem.write a b, script := rest }

theorem hostWrite_effect {s t : State} {n : Nat} {w : Word} {rest : List HostTxn} (hs : s.script = .wr n w :: rest)
    (h : (hostWrite n w { s with script := rest }).outcome = .next t) : HostEffect s t := by
  rcases hostWrite_cases n w { s with script := rest } with
    ⟨i, rfl, hb, hd, e⟩ | ⟨i, rfl, hd, e⟩ | ⟨-, hb, e⟩ | ⟨hb, -, -, e⟩ | e
  · rw [e] at h
    exact .command w rest i t hs hb hd (exec_effect h)
  · rw [e] at h
    exact .control w rest i t hs hd (exec_effect h)
  · rw [e] at h
    cases h
    exact .illegal rest hb
  · rw [e] at h
    cases h
    exact .operand n w rest hb
  · rw [e] at h
    cases h
    exact .answered rest s.replies

theorem hostMemWrite_effect {s t : State} {a : Nat} {b : Byte} {rest : List HostTxn}
    (h : hostMemWrite a b { s with script := rest } = .next t) : HostEffect s t := by
  unfold hostMemWrite at h
  split at h
  · cases h
  · next ha =>
    split at h
    · next hc =>
      cases h
      rw [Bool.or_eq_true] at hc
      exact .contested a rest s.replies s.free (hc.imp_right .inl)
    · cases h
      exact .wroteByte a b rest (Nat.lt_of_not_le ha)

theorem hostMemRead_effect {s t : State} {a : Nat} {rest : List HostTxn}
    (h : hostMemRead a { s with script := rest } = .next t) : HostEffect s t := by
  unfold hostMemRead at h
  split at h
  · cases h
  · split at h
    · next hc =>
      cases h
      rw [Bool.or_eq_true, decide_eq_true_eq] at hc
      exact .contested a rest _ _ (.inr hc)
    · cases h
      exact .answered rest _

theorem hostMove_effect {s t : State} (h : (hostMove s).outcome = .next t) : HostEffect s t := by
  unfold hostMove at h
  split at h
  · cases h
    exact .answered s.script s.replies
  · next n w rest hs => exact hostWrite_effect hs h
  · cases h
    exact .answered _ _
  · exact hostMemWrite_effect h
  · exact hostMemRead_effect h
  · cases h
    exact .answered _ _

/-! ### The step -/

/-- What a step can do to `s`. -/
inductive StepEffect (s : State) : State → Prop
  | host (t : State) (ht : s.turn = .host) (he : HostEffect s.popTurn t) : StepEffect s t
  | seq (k l : Nat) (i : Instr) (t : State) (ht : s.turn = .seq k l) (hb : s.busy = true) (hr : s.running = some i)
      (he : Effect i { s.popTurn with sel := ⟨k, l⟩ } t) : StepEffect s t
  | lane (n : Nat) (l : Lane) (i : Instr) (t : State) (hd : decode (.ph l.phase) = .ok i)
      (he : Effect i { s.popTurn with sel := ⟨s.sel.blk, n⟩ } t) : StepEffect s t
  /-- A turn of SEQ or of a lane that is not enabled (R103, R185). -/
  | passed (c : Selection) : StepEffect s { s.popTurn with sel := c }
  | ent : StepEffect s (entStep s.popTurn)
  | reset (ht : s.turn = .reset) : StepEffect s (resetEvent s.popTurn)

/-- Every outcome of a step is on the list. -/
theorem step_effect {s t : State} (h : step s = .next t) : StepEffect s t := by
  rw [step_eq_outcome] at h
  cases ht : s.turn with
  | host =>
    rw [nextMove_of_host ht] at h
    exact .host t ht (hostMove_effect h)
  | seq k l =>
    rw [nextMove_of_seq ht] at h
    rcases seqMove_cases { s.popTurn with sel := ⟨k, l⟩ } with ⟨i, hb, -, hr, e⟩ | e
    · rw [e] at h
      exact .seq k l i t ht hb hr (exec_effect h)
    · rw [e] at h
      cases h
      exact .passed ⟨k, l⟩
  | lane n =>
    rw [nextMove_of_lane ht] at h
    rcases laneMove_cases { s.popTurn with sel := ⟨s.sel.blk, n⟩ } with ⟨l, i, -, hd, e⟩ | e
    · rw [e] at h
      exact .lane n l i t hd (exec_effect h)
    · rw [e] at h
      cases h
      exact .passed ⟨s.sel.blk, n⟩
  | ent =>
    rw [nextMove_of_ent ht] at h
    cases h
    exact .ent
  | reset =>
    rw [nextMove_of_reset ht] at h
    cases h
    exact .reset ht

end Sys2Proof.Machine
end

section
/-! PROOFS. Every step keeps the invariant (R28, R36, R37, R69, R70, R75, R103): one lemma for each effect on the lists
of what an instruction, a HOST transaction and a step can do. -/

namespace Sys2Proof.Machine

/-! ### MEM below MEM_BYTES -/

theorem memory_writeBytes_below (bs : List Byte) (m : Memory) (a n : Nat) (h : m.below n = true)
    (ha : a + bs.length ≤ n) : (m.writeBytes a bs).below n = true := by
  induction bs generalizing m a with
  | nil => exact h
  | cons b bs ih =>
    rw [List.length_cons] at ha
    exact ih _ _ (memory_write_below m a b n h (by omega)) (by omega)

theorem settleBytes_below (l : List Nat) (free : Nat) (m : Memory) (n : Nat) (h : m.below n = true)
    (hl : ∀ a ∈ l, a < n) : (settleBytes free l m).below n = true := by
  induction l generalizing free m with
  | nil => exact h
  | cons a l ih =>
    rw [List.forall_mem_cons] at hl
    exact ih _ _ (memory_write_below m a _ n h hl.1) hl.2

/-! ### Flags -/

/-- The flag changes at acceptance are made once (R28). -/
theorem accFlags_accFlags (i : Instr) (f : KeyFlags) : accFlags i (accFlags i f) = accFlags i f := by
  cases i <;> rfl

/-- Acceptance leaves valid the table that the command needs (R28, R93). -/
theorem needs_met_accFlags {i : Instr} {p : Profile} (hp : profileOf i = some p) (f : KeyFlags) :
    p.needs.met (accFlags i f) = p.needs.met f := by
  cases i <;> cases hp <;> rfl

/-- Acceptance sets no flag, so it keeps "ZD = 1 only with both tables invalid" (R28). -/
theorem accFlags_keeps_zd {i : Instr} {f : KeyFlags} (h : f.zd = true → f.lutV = false ∧ f.invV = false) :
    (accFlags i f).zd = true → (accFlags i f).lutV = false ∧ (accFlags i f).invV = false := by
  cases i with
  | genlut | ldlut | ldinv => exact fun hz => nomatch hz
  | derinv => exact fun hz => ⟨(h hz).1, rfl⟩
  | zero => exact fun _ => ⟨rfl, rfl⟩
  | encb | decb | enc | dec | rdlut | rdinv | abort | clr | pack | ltr | arc | cs | rtl | unpack => exact h

/-- Completion keeps "ZD = 1 only with both tables invalid" (R28): a command that makes a table valid has cleared ZD
at acceptance, or needs a table that is valid; ZERO has invalidated both. -/
theorem okFlags_keeps_zd {i : Instr} {p : Profile} {f : KeyFlags} (hp : profileOf i = some p)
    (hm : p.needs.met f = true) (ha : accFlags i f = f) (h : f.zd = true → f.lutV = false ∧ f.invV = false) :
    (okFlags i f).zd = true → (okFlags i f).lutV = false ∧ (okFlags i f).invV = false := by
  cases i with
  | genlut | ldlut | ldinv =>
    intro hz
    cases (congrArg KeyFlags.zd ha).trans hz
  | derinv =>
    intro hz
    cases hp
    cases hm.symm.trans (h hz).1
  | zero => exact fun _ => ⟨(congrArg KeyFlags.lutV ha).symm, (congrArg KeyFlags.invV ha).symm⟩
  | encb | decb | enc | dec | rdlut | rdinv | abort | clr | pack | ltr | arc | cs | rtl | unpack => exact h

/-! ### Parts of the invariant -/

section
variable {s : State} {i : Instr} {p : Profile}

theorem Inv.runningOk (h : Inv s) (hb : s.busy = true) (hr : s.running = some i) (hp : profileOf i = some p) :
    RunningOk i p s :=
  (h.busy.2 hb).2 i hr p hp

theorem busyOk_of_running (hb : s.busy = true) (hr : s.running = some i) (hp : profileOf i = some p)
    (h : RunningOk i p s) : BusyOk s := by
  refine ⟨fun hf => by simp [hb] at hf, fun _ => ⟨by simp [hr], fun j hj q hq => ?_⟩⟩
  obtain rfl : i = j := Option.some.inj (hr.symm.trans hj)
  obtain rfl : p = q := Option.some.inj (hp.symm.trans hq)
  exact h

theorem busyOk_of_quiescent (hb : s.busy = false) (h : Quiescent s) : BusyOk s :=
  ⟨fun _ => h, fun ht => by simp [hb] at ht⟩

theorem cmdOk_of_running (hr : s.running = some i) : CmdOk s := .inr (by simp [hr])

/-- While a command runs, DONE, ERR and ECODE are 0. -/
theorem Inv.status_of_busy (h : Inv s) (hb : s.busy = true) : s.done = false ∧ s.err = false ∧ s.ecode = .none := by
  obtain ⟨hdone, herr, -, hcode⟩ := h.status
  have he : s.err = false := by simpa [hb] using herr
  exact ⟨by simpa [hb] using hdone, he, hcode.2 he⟩

/-- An active lane belongs to a running command. -/
theorem Inv.running_of_selLane {l : Lane} {r : LaneRegs} (h : Inv s) (hl : s.selLane = some l)
    (hr : l.regs? = some r) : s.busy = true ∧ ∃ i, s.running = some i := by
  cases hb : s.busy with
  | true => exact ⟨rfl, Option.isSome_iff_exists.1 (h.busy.2 hb).1⟩
  | false =>
    obtain ⟨hall, -⟩ := h.busy.1 hb
    rw [(allIdle_iff s).1 hall l (List.mem_of_getElem? hl)] at hr
    cases hr

theorem srcSize_of_running (hr : s.running = some i) (hp : profileOf i = some p) : s.srcSize = p.src.size s.len := by
  simp [State.srcSize, hr, hp]

theorem dstSize_of_running (hr : s.running = some i) (hp : profileOf i = some p) : s.dstSize = p.dst.size s.len := by
  simp [State.dstSize, hr, hp]

/-- Only bytes of the running command's buffers are contested, and the issue checks put those inside MEM (R69). -/
theorem Inv.contested_lt (h : Inv s) : ∀ a ∈ s.contested, a < s.memBytes := by
  intro a ha
  cases hb : s.busy with
  | false =>
    obtain ⟨-, -, -, hnone⟩ := h.busy.1 hb
    simp [hnone] at ha
  | true =>
    obtain ⟨i, hr⟩ := Option.isSome_iff_exists.1 (h.busy.2 hb).1
    obtain ⟨p, hp⟩ := profileOf_of_running hr
    obtain ⟨hissue, -, -, -, -, -, hmem, -⟩ := h.runningOk hb hr hp
    obtain ⟨-, -, haddr, -⟩ := (issueError_eq_none_iff p s).1 hissue
    obtain ⟨hsrc, hdst⟩ := not_not.1 haddr
    have hbuf := hmem a ha
    simp only [State.inSource, State.inDest, hb, Bool.true_and, decide_eq_true_eq, srcSize_of_running hr hp,
      dstSize_of_running hr hp] at hbuf
    omega

/-- While BUSY = 0 no byte of MEM is in a running command's buffer. -/
theorem Inv.busy_of_contested {a : Nat} (h : Inv s)
    (ha : s.inSource a = true ∨ s.inDest a = true ∨ a ∈ s.contested) : s.busy = true := by
  by_contra hb
  rw [Bool.not_eq_true] at hb
  obtain ⟨-, -, -, hnone⟩ := h.busy.1 hb
  simp [State.inSource, State.inDest, hb, hnone] at ha

/-! ### The blocks in the lanes -/

theorem activeBlocks_of_allIdle (h : s.allIdle = true) : activeBlocks s = [] := by
  rw [activeBlocks, List.filterMap_eq_nil_iff]
  intro l hl
  rw [(allIdle_iff s).1 h l hl]
  rfl

theorem stopLanes_allIdle (s : State) : (stopLanes s).allIdle = true :=
  (allIdle_iff _).2 fun _ hl => List.eq_of_mem_replicate hl

/-- The blocks of all lanes but the one whose turn it is. -/
def otherBlocks (s : State) : List Nat :=
  (s.lanes.eraseIdx s.sel.lane).filterMap fun l => l.regs?.map (·.blk)

theorem activeBlocks_perm {l : Lane} (hl : s.selLane = some l) :
    (activeBlocks s).Perm ((l.regs?.map (·.blk)).toList ++ otherBlocks s) := by
  obtain ⟨hn, rfl⟩ := List.getElem?_eq_some_iff.1 hl
  have hp := ((List.getElem_cons_eraseIdx_perm hn).symm).filterMap fun l => l.regs?.map (·.blk)
  simpa only [activeBlocks, otherBlocks, List.filterMap_eq_flatMap_toList, List.flatMap_cons] using hp

theorem activeBlocks_setSelLane_perm {l : Lane} (hl : s.selLane = some l) (l' : Lane) :
    (activeBlocks (s.setSelLane l')).Perm ((l'.regs?.map (·.blk)).toList ++ otherBlocks s) := by
  obtain ⟨hn, -⟩ := List.getElem?_eq_some_iff.1 hl
  have hl' : (s.setSelLane l').selLane = some l' := by
    show (s.lanes.set s.sel.lane l')[s.sel.lane]? = some l'
    rw [List.getElem?_set_self hn]
  have hother : otherBlocks (s.setSelLane l') = otherBlocks s := by
    show ((s.lanes.set s.sel.lane l').eraseIdx s.sel.lane).filterMap _ = _
    rw [List.eraseIdx_set_eq]
    rfl
  exact hother ▸ activeBlocks_perm hl'

/-- A command that is no cipher command has no blocks (R37, R202): its lanes are idle and PEND is empty. -/
theorem Inv.noBlocks (h : Inv s) (hb : s.busy = true) (hr : s.running = some i) (hd : dirOf? i = none) :
    s.allIdle = true ∧ s.pend = [] := by
  obtain ⟨p, hp⟩ := profileOf_of_running hr
  obtain ⟨-, -, -, hlt, hdir, -⟩ := h.runningOk hb hr hp
  have hzero : blockCount i s.len = 0 := by cases i <;> first | rfl | cases hd
  constructor
  · refine (allIdle_iff s).2 fun l hl => ?_
    cases l with
    | idle => rfl
    | pack r => cases hd.symm.trans (hdir _ hl r rfl)
    | run st r rows => cases hd.symm.trans (hdir _ hl r rfl)
  · refine List.eq_nil_iff_forall_not_mem.2 fun k hk => ?_
    have := hlt k (List.mem_append_right _ hk)
    omega

end

/-! ### The effects keep the invariant -/

section
variable {s : State}

/-- The invariant does not speak of the tables' bytes, of the environment or of the count of free values. -/
theorem Inv.withEnv (h : Inv s) (lut inv : Table) (script : List HostTxn) (replies : List Reply) (sched : List Turn)
    (sel : Selection) (entScript : List EntAnswer) (free : Nat) :
    Inv { s with
      lut := lut, inv := inv, script := script, replies := replies, sched := sched, sel := sel,
      entScript := entScript, free := free } :=
  ⟨h.params, h.memory, h.status, h.key, h.cmd, h.busy⟩

theorem Inv.withTable (h : Inv s) (d : Dir) (x : Table) : Inv (s.withTable d x) :=
  h.withEnv _ _ _ _ _ _ _ _

theorem Inv.withMem (h : Inv s) (m : Memory) (hm : m.wf = true ∧ m.below s.memBytes = true) :
    Inv { s with mem := m } :=
  ⟨h.params, hm, h.status, h.key, h.cmd, h.busy⟩

theorem Inv.engineWrite (h : Inv s) (a : Nat) (bytes : List Byte) (ha : s.holds a bytes.length) :
    Inv (engineWrite a bytes s) :=
  h.withMem _ ⟨memory_writeBytes_wf bytes s.mem a h.memory.1,
    memory_writeBytes_below bytes s.mem a s.memBytes h.memory.2 ha⟩

/-- A rejection (R254). -/
theorem Inv.reject (h : Inv s) (hb : s.busy = false) {e : ECode} (he : e ≠ .none) : Inv (reject e s) where
  params := h.params
  memory := h.memory
  status := by simp [StatusOk, hb, he]
  key := h.key
  cmd := h.cmd
  busy := busyOk_of_quiescent hb (h.busy.1 hb)

/-- CLR (R225). -/
theorem Inv.clearStatus (h : Inv s) (hb : s.busy = false) : Inv (clearStatus s) where
  params := h.params
  memory := h.memory
  status := by simp [StatusOk]
  key := h.key
  cmd := h.cmd
  busy := busyOk_of_quiescent hb (h.busy.1 hb)

/-- A write to SRC, DST or LEN (R33). -/
theorem Inv.operandWrite (h : Inv s) (hb : s.busy = false) (n : Nat) (w : Word) : Inv (operandWrite n w s) := by
  unfold Machine.operandWrite
  split <;> exact ⟨h.params, h.memory, h.status, h.key, h.cmd, busyOk_of_quiescent hb (h.busy.1 hb)⟩

/-- The checks that passed at issue pass in the accepted state. -/
theorem issueError_accept {i : Instr} {p : Profile} (hp : profileOf i = some p) (he : issueError p s = none) :
    issueError p (accept i s) = none := by
  obtain ⟨hlen, hkey, haddr, halias⟩ := (issueError_eq_none_iff p s).1 he
  refine (issueError_eq_none_iff p _).2 ⟨hlen, ?_, haddr, halias⟩
  rwa [keyMissing, accept_keyFlags, needs_met_accFlags hp]

/-- Acceptance (R98). -/
theorem Inv.accept (h : Inv s) (hb : s.busy = false) {i : Instr} {p : Profile} (hp : profileOf i = some p)
    (he : issueError p s = none) : Inv (accept i s) := by
  obtain ⟨hall, -, -, hcalm⟩ := h.busy.1 hb
  have hblocks : activeBlocks (Machine.accept i s) = [] := activeBlocks_of_allIdle hall
  have hrun : RunningOk i p (Machine.accept i s) := by
    refine ⟨issueError_accept hp he, accFlags_accFlags i s.keyFlags, ?_, ?_, ?_, ?_, ?_, ?_⟩
    · rw [hblocks]
      exact List.nodup_range
    · rw [hblocks]
      exact fun k hk => List.mem_range.1 hk
    · intro l hl r hr
      rw [(allIdle_iff s).1 hall l hl] at hr
      cases hr
    · exact fun hans => absurd rfl hans
    · simp [hcalm]
    · simp [hcalm]
  exact {
    params := h.params
    memory := h.memory
    status := by simp [StatusOk]
    key := accFlags_keeps_zd h.key
    cmd := cmdOk_of_running (accept_running i p s hp)
    busy := busyOk_of_running rfl (accept_running i p s hp) hp hrun }

/-- The end of a command gives MEM its free bytes. -/
theorem Inv.settle_memory (h : Inv s) (free : Nat) :
    (settleBytes free s.contested s.mem).wf = true ∧
      (settleBytes free s.contested s.mem).below s.memBytes = true :=
  ⟨settleBytes_wf _ _ _ h.memory.1, settleBytes_below _ _ _ _ h.memory.2 h.contested_lt⟩

/-- Completion (R99). -/
theorem Inv.complete (h : Inv s) {i : Instr} (hb : s.busy = true) (hr : s.running = some i) (ha : s.allIdle = true)
    (hpend : s.pend = []) : Inv (complete i s) := by
  obtain ⟨p, hp⟩ := profileOf_of_running hr
  obtain ⟨hissue, hacc, -⟩ := h.runningOk hb hr hp
  obtain ⟨-, hkey, -⟩ := (issueError_eq_none_iff p s).1 hissue
  obtain ⟨-, herr, hcode⟩ := h.status_of_busy hb
  exact {
    params := h.params
    memory := h.settle_memory s.free
    status := by simp [StatusOk, herr, hcode]
    key := okFlags_keeps_zd hp (by simpa [keyMissing] using hkey) hacc h.key
    cmd := h.cmd
    busy := busyOk_of_quiescent rfl ⟨ha, hpend, rfl, rfl⟩ }

/-- A run-time error (R255). -/
theorem Inv.runError (h : Inv s) (ha : s.allIdle = true) (hpend : s.pend = []) {e : ECode} (he : e ≠ .none) :
    Inv (runError e s) where
  params := h.params
  memory := h.settle_memory s.free
  status := by simp [StatusOk, he]
  key := h.key
  cmd := h.cmd
  busy := busyOk_of_quiescent rfl ⟨ha, hpend, rfl, rfl⟩

/-- Lanes and PEND may change as long as no block appears that was not there, none twice, and every active lane has the
running command's direction (R202). -/
theorem Inv.withLanes (h : Inv s) {i : Instr} (hb : s.busy = true) (hr : s.running = some i) (ls : List Lane)
    (ks : List Nat) (hlen : ls.length = s.lanes.length)
    (hblocks : (activeBlocks { s with lanes := ls, pend := ks } ++ ks).Subperm (activeBlocks s ++ s.pend))
    (hdirs : ∀ l ∈ ls, ∀ r ∈ l.regs?, dirOf? i = some r.dir) : Inv { s with lanes := ls, pend := ks } := by
  obtain ⟨p, hp⟩ := profileOf_of_running hr
  obtain ⟨hissue, hacc, hnodup, hlt, -, hent, hmem, hdup⟩ := h.runningOk hb hr hp
  obtain ⟨hpos, hrange⟩ := h.params
  obtain ⟨l, hperm, hsub⟩ := hblocks
  exact {
    params := ⟨hlen ▸ hpos, hrange⟩
    memory := h.memory
    status := h.status
    key := h.key
    cmd := h.cmd
    busy := busyOk_of_running hb hr hp
      ⟨hissue, hacc, hperm.nodup_iff.1 (hnodup.sublist hsub), fun k hk => hlt k (hsub.subset (hperm.symm.subset hk)),
        hdirs, hent, hmem, hdup⟩ }

/-- The same where one lane changes. -/
theorem Inv.withSelLane (h : Inv s) {i : Instr} (hb : s.busy = true) (hr : s.running = some i) (l' : Lane)
    (ks : List Nat) (hblocks : (activeBlocks (s.setSelLane l') ++ ks).Subperm (activeBlocks s ++ s.pend))
    (hdir : ∀ r ∈ l'.regs?, dirOf? i = some r.dir) : Inv ({ s with pend := ks }.setSelLane l') := by
  obtain ⟨p, hp⟩ := profileOf_of_running hr
  obtain ⟨-, -, -, -, hdirs, -⟩ := h.runningOk hb hr hp
  refine h.withLanes hb hr _ ks List.length_set hblocks fun l hl => ?_
  rcases List.mem_or_eq_of_mem_set hl with hl | rfl
  · exact hdirs l hl
  · exact hdir

/-- A dispatch (R202) moves one block from PEND into a lane. -/
theorem Inv.dispatch (h : Inv s) {i : Instr} {d : Dir} (hb : s.busy = true) (hr : s.running = some i)
    (hd : dirOf? i = some d) (hk : s.sel.blk ∈ s.pend) (hl : s.selLane = some .idle) :
    Inv ({ s with pend := s.pend.erase s.sel.blk }.setSelLane (activate d s.sel.blk)) := by
  refine h.withSelLane hb hr _ _ (List.Perm.subperm ?_) fun r hr => by cases hr; exact hd
  have hnew : (activeBlocks (s.setSelLane (activate d s.sel.blk))).Perm (s.sel.blk :: otherBlocks s) :=
    activeBlocks_setSelLane_perm hl _
  have hold : (activeBlocks s).Perm (otherBlocks s) := activeBlocks_perm hl
  calc _ ++ s.pend.erase s.sel.blk
    List.Perm _ (s.sel.blk :: otherBlocks s ++ s.pend.erase s.sel.blk) := hnew.append_right _
    List.Perm _ (otherBlocks s ++ s.sel.blk :: s.pend.erase s.sel.blk) := List.perm_middle.symm
    List.Perm _ (activeBlocks s ++ s.pend) := hold.symm.append (List.perm_cons_erase hk).symm

/-- A lane's step within its block (R186). -/
theorem Inv.moveLane (h : Inv s) {l l' : Lane} {r r' : LaneRegs} (hl : s.selLane = some l) (hr : l.regs? = some r)
    (hr' : l'.regs? = some r') (hd : r'.dir = r.dir) (hk : r'.blk = r.blk) : Inv (s.setSelLane l') := by
  obtain ⟨hb, i, hi⟩ := h.running_of_selLane hl hr
  obtain ⟨p, hp⟩ := profileOf_of_running hi
  obtain ⟨-, -, -, -, hdirs, -⟩ := h.runningOk hb hi hp
  have hnew := activeBlocks_setSelLane_perm hl l'
  have hold := activeBlocks_perm hl
  rw [hr', Option.map_some, hk] at hnew
  rw [hr, Option.map_some] at hold
  refine h.withSelLane hb hi l' s.pend ((hnew.trans hold.symm).append_right _).subperm fun q hq => ?_
  obtain rfl : r' = q := Option.some.inj (hr'.symm.trans hq)
  rw [hd]
  exact hdirs l (List.mem_of_getElem? hl) r hr

/-- A lane that has finished its block (R186). -/
theorem Inv.idleLane (h : Inv s) {l : Lane} {r : LaneRegs} (hl : s.selLane = some l) (hr : l.regs? = some r) :
    Inv (s.setSelLane .idle) := by
  obtain ⟨hb, i, hi⟩ := h.running_of_selLane hl hr
  have hnew : (activeBlocks (s.setSelLane .idle)).Perm (otherBlocks s) := activeBlocks_setSelLane_perm hl .idle
  have hold := activeBlocks_perm hl
  refine h.withSelLane hb hi .idle s.pend (List.Subperm.append ?_ (.refl _)) fun q hq => nomatch hq
  exact hnew.subperm.trans ((List.sublist_append_right _ _).subperm.trans hold.symm.subperm)

/-- All lanes stopped, PEND empty (R224). -/
theorem Inv.stopLanes (h : Inv s) (hb : s.busy = true) : Inv (stopLanes s) := by
  obtain ⟨i, hr⟩ := Option.isSome_iff_exists.1 (h.busy.2 hb).1
  have hnone : activeBlocks (Machine.stopLanes s) = [] := activeBlocks_of_allIdle (stopLanes_allIdle s)
  refine h.withLanes hb hr _ [] List.length_replicate ?_ fun l hl r hr => ?_
  · change (activeBlocks (Machine.stopLanes s) ++ []).Subperm _
    rw [hnone]
    exact List.nil_subperm
  · rw [List.eq_of_mem_replicate hl] at hr
    cases hr

/-- The abort of the running command (R224). -/
theorem Inv.abortRunning (h : Inv s) (hb : s.busy = true) : Inv (abortRunning s) := by
  have hstop := h.stopLanes hb
  have hidle := stopLanes_allIdle s
  unfold Machine.abortRunning
  rcases spoilTable_cases s.running (Machine.stopLanes s) with ⟨-, e⟩ | ⟨-, e⟩ | ⟨-, e⟩
  · rw [e]
    exact (hstop.withEnv _ _ _ _ _ _ _ _ : Inv (lutAny _)).runError hidle rfl (by decide)
  · rw [e]
    exact (hstop.withEnv _ _ _ _ _ _ _ _ : Inv (invAny _)).runError hidle rfl (by decide)
  · rw [e]
    exact hstop.runError hidle rfl (by decide)

/-- A table command ends with idle lanes and empty PEND, which it has had all along. -/
theorem Inv.noBlocks_of_tableOut (h : Inv s) {i : Instr} {d : Dir} (hb : s.busy = true) (hr : s.running = some i)
    (hi : tableOut? i = some d) : s.allIdle = true ∧ s.pend = [] :=
  h.noBlocks hb hr (by cases i <;> first | rfl | cases hi)

/-- No instruction leaves the invariant. -/
theorem Inv.effect (h : Inv s) {i : Instr} {t : State} (he : Effect i s t) : Inv t := by
  cases he with
  | unchanged => exact h
  | rejected e hb he => exact h.reject hb he
  | accepted p hb hp he => exact h.accept hb hp he
  | dispatched d hb hr hd hk hl => exact h.dispatch hb hr hd hk hl
  | finished d hb hr hd hp ha => exact h.complete hb hr ha hp
  | tableWritten d x n hb hr hi =>
    obtain ⟨ha, hp⟩ := h.noBlocks_of_tableOut hb hr hi
    exact ((h.withEnv _ _ _ _ _ _ _ n).withTable d x).complete hb hr ha hp
  | tableFailed d e x n hb hr hi he =>
    obtain ⟨ha, hp⟩ := h.noBlocks_of_tableOut hb hr hi
    exact ((h.withEnv _ _ _ _ _ _ _ n).withTable d x).runError ha hp he
  | zeroed hb hr hi =>
    obtain ⟨ha, hp⟩ := h.noBlocks hb hr (by rw [hi]; rfl)
    exact (h.withEnv zeroTable zeroTable _ _ _ _ _ _).complete hb hr ha hp
  | stored x hb hr hi ha =>
    obtain ⟨hidle, hp⟩ := h.noBlocks hb hr (by rcases hi with rfl | rfl <;> rfl)
    have hx : s.holds s.dst.toNat x.toList.length := by rwa [Vector.length_toList]
    exact (h.engineWrite _ _ hx).complete hb hr hidle hp
  | aborted c hi hb => exact h.abortRunning hb
  | cleared hb => exact h.clearStatus hb
  | laneMoved l l' r r' n hl hr hr' hd hk =>
    exact (h.withEnv _ _ _ _ _ _ _ n : Inv { s with free := n }).moveLane hl hr hr' hd hk
  | laneDone l r a bytes hl hr ha => exact (h.engineWrite a bytes ha).idleLane hl hr

/-! ### The agents' turns -/

/-- The HOST touches a byte of the running command's buffers (R75). -/
theorem Inv.contest (h : Inv s) {a : Nat} (ha : s.inSource a = true ∨ s.inDest a = true ∨ a ∈ s.contested) :
    Inv (contest a s) := by
  have hb := h.busy_of_contested ha
  obtain ⟨i, hr⟩ := Option.isSome_iff_exists.1 (h.busy.2 hb).1
  obtain ⟨p, hp⟩ := profileOf_of_running hr
  obtain ⟨hissue, hacc, hnodup, hlt, hdirs, hent, hmem, hdup⟩ := h.runningOk hb hr hp
  have hbuf : s.inSource a = true ∨ s.inDest a = true := by
    rcases ha with ha | ha | ha
    · exact .inl ha
    · exact .inr ha
    · exact hmem a ha
  have hnew : (∀ x ∈ (Machine.contest a s).contested, s.inSource x = true ∨ s.inDest x = true) ∧
      (Machine.contest a s).contested.Nodup := by
    rw [contest_contested]
    split
    · exact ⟨hmem, hdup⟩
    · next hna => exact ⟨List.forall_mem_cons.2 ⟨hbuf, hmem⟩, List.nodup_cons.2 ⟨hna, hdup⟩⟩
  exact ⟨h.params, h.memory, h.status, h.key, h.cmd,
    busyOk_of_running hb hr hp ⟨hissue, hacc, hnodup, hlt, hdirs, hent, hnew.1, hnew.2⟩⟩

theorem Inv.withScript (h : Inv s) (rest : List HostTxn) : Inv { s with script := rest } :=
  h.withEnv _ _ _ _ _ _ _ _

theorem Inv.hostEffect (h : Inv s) {t : State} (he : HostEffect s t) : Inv t := by
  cases he with
  | command w rest i t hs hb hd he => exact (h.withScript rest).effect he
  | control w rest i t hs hd he => exact (h.withScript rest).effect he
  | illegal rest hb => exact (h.withScript rest).reject hb (by decide)
  | operand n w rest hb => exact (h.withScript rest).operandWrite hb n w
  | answered rest rs => exact h.withEnv _ _ _ _ _ _ _ _
  | contested a rest rs n ha => exact (h.contest ha).withEnv _ _ _ _ _ _ _ _
  | wroteByte a b rest ha =>
    exact (h.withScript rest).withMem _
      ⟨memory_write_wf _ a b h.memory.1, memory_write_below _ a b _ h.memory.2 ha⟩

/-- ENT's turn (R262, R263): only a running GENLUT gets an answer. -/
theorem Inv.entStep (h : Inv s) : Inv (entStep s) := by
  rcases entStep_cases s with ⟨a, rest, hb, hr, -, -, e⟩ | e
  · rw [e]
    obtain ⟨hissue, hacc, hnodup, hlt, hdirs, -, hmem, hdup⟩ := h.runningOk hb hr rfl
    exact ⟨h.params, h.memory, h.status, h.key, h.cmd,
      busyOk_of_running hb hr rfl ⟨hissue, hacc, hnodup, hlt, hdirs, fun _ => rfl, hmem, hdup⟩⟩
  · rwa [e]

/-- The reset event (R41, R103). -/
theorem Inv.resetEvent (h : Inv s) : Inv (resetEvent s) where
  params := ⟨(List.length_replicate (n := s.lanes.length)).symm ▸ h.params.1, h.params.2⟩
  memory := h.settle_memory s.free
  status := by simp [Machine.resetEvent, StatusOk]
  key := by simp [Machine.resetEvent, KeyOk]
  cmd := .inl rfl
  busy := busyOk_of_quiescent rfl ⟨stopLanes_allIdle s, rfl, rfl, rfl⟩

theorem Inv.stepEffect (h : Inv s) {t : State} (he : StepEffect s t) : Inv t := by
  have hturn (c : Selection) : Inv { s.popTurn with sel := c } := h.withEnv _ _ _ _ _ _ _ _
  cases he with
  | host t ht he => exact Inv.hostEffect (hturn s.sel) he
  | seq k l i t ht hb hr he => exact (hturn _).effect he
  | lane n l i t hd he => exact (hturn _).effect he
  | passed c => exact hturn c
  | ent => exact Inv.entStep (hturn s.sel)
  | reset ht => exact Inv.resetEvent (hturn s.sel)

end

/-- Settles O9: every effect of a step keeps the invariant. -/
theorem everyStepKeepsInvariant : Obligations.EveryStepKeepsInvariant :=
  fun _ _ h hs => h.stepEffect (step_effect hs)

end Sys2Proof.Machine
end

section
/-! PROOFS. The registers and MEM as the HOST sees them (R30 to R38), the reset event (R41, R280), and the place where
each agent finds the instruction it runs (R31, R34, R98). -/

namespace Sys2Proof.Machine

/-- `s` with the turn and the HOST's transaction taken off. -/
def State.afterTxn (s : State) (rest : List HostTxn) : State := { s with sched := s.sched.tail, script := rest }

section
variable {s : State} {rest : List HostTxn} {n : Nat} {w : Word}

/-! ### One rule per transaction -/

theorem step_of_write (h : HostTurn s (.wr n w) rest) : step s = (hostWrite n w (s.afterTxn rest)).outcome := by
  obtain ⟨ht, hs⟩ := h
  rw [step_eq_outcome, nextMove_of_host ht, hostMove, popTurn_script, hs]
  rfl

theorem regRead_popTurn (n : Nat) (s : State) : regRead n s.popTurn = regRead n s := by
  unfold regRead
  split <;> rfl

theorem step_of_read (h : HostTurn s (.rd n) rest) :
    step s = .next (reply (.word (regRead n s)) (s.afterTxn rest)) := by
  obtain ⟨ht, hs⟩ := h
  rw [step_eq_outcome, nextMove_of_host ht, hostMove, popTurn_script, hs, ← regRead_popTurn]
  rfl

theorem step_of_memWrite {a : Nat} {b : Byte} (h : HostTurn s (.wm a b) rest) :
    step s = hostMemWrite a b (s.afterTxn rest) := by
  obtain ⟨ht, hs⟩ := h
  rw [step_eq_outcome, nextMove_of_host ht, hostMove, popTurn_script, hs]
  rfl

theorem step_of_memRead {a : Nat} (h : HostTurn s (.rm a) rest) : step s = hostMemRead a (s.afterTxn rest) := by
  obtain ⟨ht, hs⟩ := h
  rw [step_eq_outcome, nextMove_of_host ht, hostMove, popTurn_script, hs]
  rfl

/-! ### Writes and reads by register number -/

/-- A command word written while BUSY = 0 issues its command (R31, R98). -/
theorem step_of_commandWrite {i : Instr} (h : HostTurn s (.wr 0 w) rest) (hb : s.busy = false)
    (hd : decode (.cmdw w) = .ok i) : step s = exec i (s.afterTxn rest) := by
  have hb' : (s.afterTxn rest).busy = false := hb
  rw [step_of_write h]
  simp [hostWrite, hb', hd, Move.outcome]

/-- A control word makes its request at any time (R34). -/
theorem step_of_controlWrite {i : Instr} (h : HostTurn s (.wr 5 w) rest) (hd : decode (.ctrlw w) = .ok i) :
    step s = exec i (s.afterTxn rest) := by
  rw [step_of_write h]
  simp [hostWrite, hd, Move.outcome]

/-- While BUSY = 1 every register but CTRL drops what is written to it (R36). -/
theorem step_of_busyWrite (h : HostTurn s (.wr n w) rest) (hb : s.busy = true) (hn : n ≠ 5) :
    step s = .next (s.afterTxn rest) := by
  have hb' : (s.afterTxn rest).busy = true := hb
  rw [step_of_write h]
  simp [hostWrite, hb', hn, Move.outcome]

theorem step_of_idleWrite (h : HostTurn s (.wr n w) rest) (hb : s.busy = false) (h0 : n ≠ 0) (h5 : n ≠ 5) :
    step s = .next (operandWrite n w (s.afterTxn rest)) := by
  have hb' : (s.afterTxn rest).busy = false := hb
  rw [step_of_write h]
  simp [hostWrite, hb', h0, h5, Move.outcome]

theorem operandWrite_of_other (s : State) (w : Word) (hn : n < 2 ∨ 4 < n) : operandWrite n w s = s := by
  unfold operandWrite
  split <;> first | omega | rfl

/-- A write to STATUS or to an unmapped number is dropped (R32, R35). -/
theorem step_of_droppedWrite (h : HostTurn s (.wr n w) rest) (hn : n = 1 ∨ 6 ≤ n) :
    step s = .next (s.afterTxn rest) := by
  cases hb : s.busy with
  | true => exact step_of_busyWrite h hb (by omega)
  | false => rw [step_of_idleWrite h hb (by omega) (by omega), operandWrite_of_other _ w (by omega)]

theorem regRead_of_unmapped (s : State) (hn : 5 ≤ n) : regRead n s = 0 := by
  unfold regRead
  split <;> first | omega | rfl

/-! ### Bytes of MEM -/

/-- A byte outside the running command's buffers is written (R38, R75). -/
theorem hostMemWrite_of_free {a : Nat} (b : Byte) (ha : a < s.memBytes) (hsrc : s.inSource a = false)
    (hdst : s.inDest a = false) : hostMemWrite a b s = .next { s with mem := s.mem.write a b } := by
  rw [hostMemWrite, if_neg (Nat.not_le.2 ha), hsrc, hdst]
  rfl

/-- A byte outside the destination that is not contested is read (R38, R75). -/
theorem hostMemRead_of_free {a : Nat} (ha : a < s.memBytes) (hdst : s.inDest a = false) (hcalm : a ∉ s.contested) :
    hostMemRead a s = .next (reply (.byte (s.mem.read a)) s) := by
  rw [hostMemRead, if_neg (Nat.not_le.2 ha), hdst, decide_eq_false hcalm]
  rfl

end

/-! ### The fields of STATUS (R32) -/

theorem statusWord_flags (s : State) :
    (statusWord s).getLsbD 0 = s.busy ∧ (statusWord s).getLsbD 1 = s.done ∧ (statusWord s).getLsbD 2 = s.err ∧
      (statusWord s).getLsbD 3 = s.lutV ∧ (statusWord s).getLsbD 4 = s.invV ∧ (statusWord s).getLsbD 7 = false := by
  simp only [statusWord, BitVec.getLsbD_append]
  simp

theorem statusWord_keyState (s : State) : (statusWord s).extractLsb' 5 2 = s.keyFlags.keyState.code := by
  refine BitVec.eq_of_getLsbD_eq fun i hi => ?_
  simp only [statusWord, BitVec.getLsbD_extractLsb', BitVec.getLsbD_append]
  interval_cases i <;> simp

theorem statusWord_ecode (s : State) : (statusWord s).extractLsb' 8 4 = s.ecode.code := by
  refine BitVec.eq_of_getLsbD_eq fun i hi => ?_
  simp only [statusWord, BitVec.getLsbD_extractLsb', BitVec.getLsbD_append]
  interval_cases i <;> simp

theorem statusWord_upper (s : State) : (statusWord s).extractLsb' 12 20 = 0 := by
  refine BitVec.eq_of_getLsbD_eq fun i hi => ?_
  simp only [statusWord, BitVec.getLsbD_extractLsb', BitVec.getLsbD_append]
  interval_cases i <;> simp

/-! ### Instructions leave the operand registers as they are -/

theorem spoilTable_operands (i : Option Instr) (s : State) :
    (spoilTable i s).src = s.src ∧ (spoilTable i s).dst = s.dst ∧ (spoilTable i s).len = s.len := by
  rcases spoilTable_cases i s with ⟨-, e⟩ | ⟨-, e⟩ | ⟨-, e⟩ <;> rw [e] <;> exact ⟨rfl, rfl, rfl⟩

/-- No instruction changes SRC, DST or LEN (R33). -/
theorem Effect.operands {i : Instr} {s t : State} (h : Effect i s t) :
    t.src = s.src ∧ t.dst = s.dst ∧ t.len = s.len := by
  cases h with
  | aborted => exact spoilTable_operands s.running (stopLanes s)
  | unchanged | rejected | accepted | dispatched | finished | tableWritten | tableFailed | zeroed | stored | cleared
  | laneMoved | laneDone => exact ⟨rfl, rfl, rfl⟩

/-! ### The statements -/

/-- Settles O13, by the rules of the transactions; no effect of an instruction touches SRC, DST or LEN. -/
theorem operandRegistersHoldWhatTheHostWrote : Obligations.OperandRegistersHoldWhatTheHostWrote := by
  refine ⟨fun s w rest hb => ⟨fun h => ?_, fun h => ?_, fun h => ?_⟩, fun s n w rest hb hlo hhi h => ?_,
    fun s n w rest h hn => ?_, fun i s t h => (exec_effect h).operands⟩
  · exact step_of_idleWrite h hb (by decide) (by decide)
  · exact step_of_idleWrite h hb (by decide) (by decide)
  · exact step_of_idleWrite h hb (by decide) (by decide)
  · exact step_of_busyWrite h hb (by omega)
  · rw [step_of_read h]
    rcases hn with ⟨rfl, rfl⟩ | ⟨rfl, rfl⟩ | ⟨rfl, rfl⟩ <;> rfl

/-- Settles O15: the rules of WM and RM, and what a write to MEM is read back as. -/
theorem hostReadsAndWritesMemoryBytes : Obligations.HostReadsAndWritesMemoryBytes := by
  intro s a b rest hwf
  refine ⟨fun h ha hsrc hdst => ?_, fun h ha hdst hcalm => ?_, fun ha h => ?_⟩
  · refine ⟨s.mem.write a b, memory_write_wf _ _ _ hwf, memory_read_write_same _ _ _ hwf,
      fun x hx => memory_read_write_other _ _ _ x hwf hx, ?_⟩
    exact (step_of_memWrite h).trans (hostMemWrite_of_free (s := s.afterTxn rest) b ha hsrc hdst)
  · exact (step_of_memRead h).trans (hostMemRead_of_free (s := s.afterTxn rest) ha hdst hcalm)
  · rcases h with h | h
    · rw [step_of_memWrite h]
      exact if_pos ha
    · rw [step_of_memRead h]
      exact if_pos ha

theorem step_of_reset {s : State} (h : s.turn = .reset) : step s = .next (resetEvent s.popTurn) := by
  rw [step_eq_outcome, nextMove_of_reset h]
  rfl

/-- Every field after the reset event (R41, R280). -/
theorem resetEvent_eq (s : State) : resetEvent s = { s with
    cmd := 0, busy := false, done := false, err := false, ecode := .none, lutV := false, invV := false, zd := false,
    src := 0, dst := 0, len := 0, lut := anyTable (settle s).free, inv := anyTable (lutAny (settle s)).free,
    lanes := List.replicate s.lanes.length .idle, pend := [], mem := (settle s).mem, entAns := none,
    contested := [], free := (invAny (lutAny (settle s))).free } := rfl

theorem statusWord_resetEvent (s : State) : statusWord (resetEvent s) = 0 :=
  calc statusWord (resetEvent s)
    _ = statusWord State.reset := rfl
    _ = 0 := rfl

/-- Settles O7: the reset event ends the command's claim on its buffers, and settling leaves the other bytes. -/
theorem resetEventGivesResetValues : Obligations.ResetEventGivesResetValues :=
  fun s ht hwf => ⟨_, _, _, _, _, step_of_reset ht, resetEvent_eq s.popTurn,
    fun a ha => settleBytes_read s.contested s.free s.mem hwf a ha, statusWord_resetEvent _⟩

/-- Settles O4: each agent's move runs what its place decodes to. -/
theorem stepRunsTheDecodedInstruction : Obligations.StepRunsTheDecodedInstruction := by
  refine ⟨fun s w rest i h hb hd => step_of_commandWrite h hb hd, fun s w rest i h hd => step_of_controlWrite h hd,
    fun s k l i ht hb hd => ?_, fun s l lane i ht hl hd => ?_⟩
  · refine step_of_run ((nextMove_of_seq ht).trans ?_)
    simp [seqMove, hb, hd, State.popTurn]
  · refine step_of_run ((nextMove_of_lane ht).trans ?_)
    simp [laneMove, State.selLane, hl, hd, State.popTurn]

/-- Settles O6: the fields of the literal state. -/
theorem resetStateHoldsSpecValues : Obligations.ResetStateHoldsSpecValues :=
  ⟨rfl, rfl, rfl, rfl, rfl, rfl, rfl, rfl, rfl, rfl, rfl, fun _ hl => List.eq_of_mem_replicate hl, rfl, rfl⟩

/-- Settles O8: the machine is quiescent, and no flag is set. -/
theorem resetStateSatisfiesInvariant : Obligations.ResetStateSatisfiesInvariant where
  params := by decide
  memory := by decide
  status := by decide
  key := by decide
  cmd := .inl rfl
  busy := busyOk_of_quiescent rfl (by decide)

/-- Settles O11: the fields of STATUS stand side by side, and the register is only read. -/
theorem statusReadsItsFields : Obligations.StatusReadsItsFields := by
  intro s
  obtain ⟨hbusy, hdone, herr, hlutV, hinvV, hzero⟩ := statusWord_flags s
  exact ⟨⟨hbusy, hdone, herr, hlutV, hinvV, statusWord_keyState s, hzero, statusWord_ecode s, statusWord_upper s⟩,
    fun rest h => step_of_read h, fun w rest h => step_of_droppedWrite h (.inl rfl)⟩

/-- Settles O12: the eight values of the three flags. -/
theorem keyStateFollowsFlags : Obligations.KeyStateFollowsFlags := by
  rintro ⟨lutV, invV, zd⟩
  cases lutV <;> cases invV <;> cases zd <;> decide

/-- Settles O14, by the rules of the transactions. -/
theorem otherRegistersReadAndDropAsMapped : Obligations.OtherRegistersReadAndDropAsMapped := by
  refine fun s n w rest => ⟨fun h => step_of_read h, fun h hb => step_of_busyWrite h hb (by decide),
    fun h hn => ?_, fun h hn => step_of_droppedWrite h (.inr hn)⟩
  rw [step_of_read h, regRead_of_unmapped s hn]
  rfl

end Sys2Proof.Machine
end

section
/-! PROOFS. The commands that write the tables LUT and INV (R26, R27, R121 to R129, R222), and that nothing else does. -/

namespace Sys2Proof.Machine

/-! ### Who changes a table -/

theorem spoilTable_tableOf (d : Dir) (j : Option Instr) (s : State)
    (hne : (spoilTable j s).tableOf d ≠ s.tableOf d) : ∃ i, j = some i ∧ tableOut? i = some d := by
  rcases spoilTable_cases j s with ⟨hj, e⟩ | ⟨hj, e⟩ | ⟨-, e⟩
  · rw [e] at hne
    cases d with
    | enc => rcases hj with rfl | rfl <;> exact ⟨_, rfl, rfl⟩
    | dec => exact absurd rfl hne
  · rw [e] at hne
    cases d with
    | enc => exact absurd rfl hne
    | dec => rcases hj with rfl | rfl <;> exact ⟨_, rfl, rfl⟩
  · rw [e] at hne
    exact absurd rfl hne

/-- An instruction that changes a table is the running command, which writes it or is ZERO, or aborts a command that
writes it. -/
theorem Effect.tableOf {i : Instr} {s t : State} {d : Dir} (h : Effect i s t) (hne : t.tableOf d ≠ s.tableOf d) :
    s.busy = true ∧ (s.running = some i ∧ (tableOut? i = some d ∨ i = .zero) ∨
      (∃ c, i = .abort c) ∧ ∃ j, s.running = some j ∧ tableOut? j = some d) := by
  have hwrite {d' : Dir} {x : Table} {n : Nat}
      (hx : ({ s with free := n }.withTable d' x).tableOf d ≠ s.tableOf d) : d' = d := by
    by_contra hd
    exact hx ((tableOf_withTable_of_ne x _ (Ne.symm hd)).trans (by cases d <;> rfl))
  cases h with
  | tableWritten d' x n hb hr hi =>
    rw [complete_tableOf] at hne
    exact ⟨hb, .inl ⟨hr, .inl (hwrite hne ▸ hi)⟩⟩
  | tableFailed d' e x n hb hr hi he =>
    rw [runError_tableOf] at hne
    exact ⟨hb, .inl ⟨hr, .inl (hwrite hne ▸ hi)⟩⟩
  | zeroed hb hr hi => exact ⟨hb, .inl ⟨hr, .inr hi⟩⟩
  | aborted c hi hb =>
    rw [abortRunning, runError_tableOf, ← stopLanes_tableOf] at hne
    exact ⟨hb, .inr ⟨⟨c, hi⟩, spoilTable_tableOf d s.running (stopLanes s) hne⟩⟩
  | unchanged | rejected | accepted | dispatched | finished | stored | cleared | laneMoved | laneDone =>
    exact absurd (by cases d <;> rfl) hne

/-- A lane's phase is no command and no control request. -/
theorem not_tableCommand_of_ph {p : BitVec 3} {i : Instr} (h : decode (.ph p) = .ok i) :
    tableOut? i = none ∧ i ≠ .zero ∧ ∀ c, i ≠ .abort c := by
  simp only [decode, decodePh] at h
  split at h <;> cases h <;> exact ⟨rfl, by decide, fun _ hc => nomatch hc⟩

/-- A control request is no command. -/
theorem not_tableCommand_of_ctrlw {w : Word} {i : Instr} (h : decode (.ctrlw w) = .ok i) :
    tableOut? i = none ∧ i ≠ .zero := by
  rcases instr_of_ctrlw h with ⟨rfl, -⟩ | ⟨rfl, -⟩ <;> exact ⟨rfl, fun hz => nomatch hz⟩

/-- The HOST changes a table only by the abort of a command that writes it (R224). -/
theorem HostEffect.tableOf {s t : State} {d : Dir} (h : HostEffect s t) (hne : t.tableOf d ≠ s.tableOf d) :
    s.busy = true ∧ (∃ w rest, s.script = .wr 5 w :: rest ∧ w.getLsbD 0 = true) ∧
      ∃ j, s.running = some j ∧ tableOut? j = some d := by
  cases h with
  | command w rest i t hs hb hd he =>
    obtain ⟨hb', -⟩ := he.tableOf (d := d) (by cases d <;> exact hne)
    cases hb.symm.trans hb'
  | control w rest i t hs hd he =>
    obtain ⟨hb, ⟨-, hi⟩ | ⟨⟨c, rfl⟩, hj⟩⟩ := he.tableOf (d := d) (by cases d <;> exact hne)
    · obtain ⟨hout, hzero⟩ := not_tableCommand_of_ctrlw hd
      exact absurd hi (by simp [hout, hzero])
    · rcases instr_of_ctrlw hd with ⟨-, hbit⟩ | ⟨hi, -⟩
      · exact ⟨hb, ⟨w, rest, hs, hbit⟩, hj⟩
      · cases hi
  | operand n w rest hb =>
    refine absurd ?_ hne
    unfold operandWrite
    split <;> cases d <;> rfl
  | illegal | answered | contested | wroteByte => exact absurd (by cases d <;> rfl) hne

/-- Who changes a table at a step. -/
theorem StepEffect.tableOf {s t : State} {d : Dir} (h : StepEffect s t) (hne : t.tableOf d ≠ s.tableOf d) :
    s.turn = .reset ∨
    (s.busy = true ∧ (∃ k l, s.turn = .seq k l) ∧
      ∃ i, s.running = some i ∧ (tableOut? i = some d ∨ i = .zero)) ∨
    (s.busy = true ∧ (∃ w rest, HostTurn s (.wr 5 w) rest ∧ w.getLsbD 0 = true) ∧
      ∃ i, s.running = some i ∧ tableOut? i = some d) := by
  cases h with
  | host t ht he =>
    obtain ⟨hb, ⟨w, rest, hs, hbit⟩, hj⟩ := he.tableOf (d := d) (by cases d <;> exact hne)
    exact .inr (.inr ⟨hb, ⟨w, rest, ⟨ht, hs⟩, hbit⟩, hj⟩)
  | seq k l i t ht hb hr he =>
    obtain ⟨-, ⟨-, hi⟩ | ⟨⟨c, rfl⟩, -⟩⟩ := he.tableOf (d := d) (by cases d <;> exact hne)
    · exact .inr (.inl ⟨hb, ⟨k, l, ht⟩, i, hr, hi⟩)
    · obtain ⟨p, hp⟩ := profileOf_of_running hr
      cases hp
  | lane n l i t hd he =>
    obtain ⟨hout, hzero, habort⟩ := not_tableCommand_of_ph hd
    obtain ⟨-, ⟨-, hi⟩ | ⟨⟨c, hc⟩, -⟩⟩ := he.tableOf (d := d) (by cases d <;> exact hne)
    · exact absurd hi (by simp [hout, hzero])
    · exact absurd hc (habort c)
  | passed c => exact absurd (by cases d <;> rfl) hne
  | ent =>
    refine absurd ?_ hne
    rcases entStep_cases s.popTurn with ⟨a, rest, -, -, -, -, e⟩ | e <;> rw [e] <;> cases d <;> rfl
  | reset ht => exact .inl ht

theorem tableOut?_eq_enc_iff (i : Instr) : tableOut? i = some .enc ↔ i = .genlut ∨ i = .ldlut := by
  cases i <;> simp [tableOut?]

theorem tableOut?_eq_dec_iff (i : Instr) : tableOut? i = some .dec ↔ i = .derinv ∨ i = .ldinv := by
  cases i <;> simp [tableOut?]

/-- Settles O55, by cases over what a step can do. -/
theorem tablesChangeOnlyByTheirCommands : Obligations.TablesChangeOnlyByTheirCommands := by
  refine fun s t h => ⟨fun hne => ?_, fun hne => ?_⟩
  · have hcause := (step_effect h).tableOf (d := .enc) hne
    simpa only [tableOut?_eq_enc_iff, and_or_left, exists_or, exists_eq_right, or_assoc] using hcause
  · have hcause := (step_effect h).tableOf (d := .dec) hne
    simpa only [tableOut?_eq_dec_iff, and_or_left, exists_or, exists_eq_right, or_assoc] using hcause

/-! ### The issue checks of the table commands (R252) -/

/-- A command that moves no byte of MEM is checked for its table only. -/
theorem issueError_of_noRegion (n : TableNeed) (s : State) :
    issueError ⟨.unused, .unused, n⟩ s = if n.met s.keyFlags = false then some .notKeyed else none := by
  simp [issueError, Profile.bulk, Extent.size]

/-- A command that loads a table is checked for its source only (R69). -/
theorem issueError_of_load (s : State) :
    issueError ⟨.bytes 256, .unused, .nothing⟩ s =
      if s.memBytes < s.src.toNat + 256 then some .badAddress else none := by
  have hlen : ¬ lengthBad ⟨.bytes 256, .unused, .nothing⟩ s := by simp [Profile.bulk]
  have hkey : ¬ keyMissing ⟨.bytes 256, .unused, .nothing⟩ s := by simp [TableNeed.met]
  have hoverlap : ¬ aliasBad ⟨.bytes 256, .unused, .nothing⟩ s := fun ⟨_, hdst, _⟩ => absurd hdst (Nat.lt_irrefl 0)
  have haddr : addressBad ⟨.bytes 256, .unused, .nothing⟩ s ↔ s.memBytes < s.src.toNat + 256 := by
    simp [Extent.size]
  simp only [issueError, if_neg hlen, if_neg hkey, if_neg hoverlap, haddr]

theorem issue_of_load {i : Instr} (s : State) (hp : profileOf i = some ⟨.bytes 256, .unused, .nothing⟩) :
    issue i s = if s.memBytes < s.src.toNat + 256 then reject .badAddress s else accept i s := by
  split
  · next hm => exact issue_of_rejected hp ((issueError_of_load s).trans (if_pos hm))
  · next hm => exact issue_of_accepted hp ((issueError_of_load s).trans (if_neg hm))

/-- A command that needs no table and moves no byte of MEM is accepted in every key state. -/
theorem issue_of_unchecked {i : Instr} (s : State) (hp : profileOf i = some ⟨.unused, .unused, .nothing⟩) :
    issue i s = accept i s :=
  issue_of_accepted hp (issueError_of_noRegion .nothing s)

/-! ### The inverse table (R126) -/

section
variable {t : Table}

/-- No value stands twice in a permutation. -/
theorem IsPermutation.get_injective (h : IsPermutation t) {a b : Fin 256} (e : t[a] = t[b]) : a = b := by
  have hnodup : t.toList.Nodup := List.nodup_iff_count_le_one.2 fun v => (h v).le
  refine Fin.ext (hnodup.getElem_inj_iff (hi := by simp) (hj := by simp) |>.1 ?_)
  simpa using e

/-- After `n` iterations the entry for each of the first `n` values of LUT is its index: no later iteration writes it
again, since no value stands twice. -/
theorem look_invertSteps (h : IsPermutation t) (start : Table) (k : Fin 256) :
    ∀ n, n ≤ 256 → k.val < n → look (invertSteps t start n) t[k] = BitVec.ofNat 8 k.val
  | 0, _, hk => absurd hk (Nat.not_lt_zero _)
  | n + 1, hn, hk => by
    have hn' : n < 256 := hn
    simp only [look, invertSteps, dif_pos hn', Vector.getElem_set]
    by_cases hkn : k.val = n
    · subst hkn
      exact if_pos rfl
    · have hne : t[n].toNat ≠ t[k].toNat := by
        intro e
        have heq : (⟨n, hn'⟩ : Fin 256) = k := IsPermutation.get_injective h (BitVec.eq_of_toNat_eq e)
        exact hkn (congrArg Fin.val heq).symm
      rw [if_neg hne]
      exact look_invertSteps h start k n hn'.le (by omega)

theorem look_ofNat (t : Table) (k : Fin 256) : look t (BitVec.ofNat 8 k.val) = t[k] := by
  simp [look]

theorem look_invertTable (h : IsPermutation t) (start : Table) (k : Fin 256) :
    look (invertTable t start) t[k] = BitVec.ofNat 8 k.val := by
  unfold invertTable
  exact look_invertSteps h start k 256 le_rfl k.isLt

/-- The derived table undoes LUT. -/
theorem invertTable_inverseOf (h : IsPermutation t) (start : Table) : InverseOf (invertTable t start) t := by
  intro v
  have hv : v = BitVec.ofNat 8 (v.toFin : Fin 256).val := by simp
  rw [hv, look_ofNat, look_invertTable h]

/-- LUT undoes the derived table. -/
theorem inverseOf_invertTable (h : IsPermutation t) (start : Table) : InverseOf t (invertTable t start) := by
  intro v
  obtain ⟨k, rfl⟩ := IsPermutation.exists_get h v
  rw [look_invertTable h, look_ofNat]

end

/-! ### The statements -/

/-- Settles O26: the derivation writes each entry once when LUT is a permutation. -/
theorem derinvInvertsAPermutation : Obligations.DerinvInvertsAPermutation := by
  refine fun s => ⟨fun hb => ?_, fun hb hr => ⟨fun hp => ?_, fun hp => ?_⟩⟩
  · refine (command_of_idle .derinv derinvWork hb).trans ?_
    have hcheck : issueError ⟨.unused, .unused, .lut⟩ s = if s.lutV = false then some .notKeyed else none :=
      issueError_of_noRegion .lut s
    split
    · next hv => rw [issue_of_rejected rfl (hcheck.trans (if_pos hv)), reject]
    · next hv =>
      rw [issue_of_accepted rfl (hcheck.trans (if_neg hv))]
      rfl
  · refine ⟨invertTable s.lut s.inv, invertTable_inverseOf hp _, inverseOf_invertTable hp _, ?_⟩
    refine (command_of_running derinvWork hb hr).trans ?_
    rw [derinvWork, if_pos hp]
    rfl
  · refine (command_of_running derinvWork hb hr).trans ?_
    rw [derinvWork, if_neg hp]
    rfl

/-- The bytes that a load takes from MEM (R128, R129). -/
theorem loadTable_get (s : State) (i : Fin 256) (h : s.src.toNat + i.val ∉ s.contested) :
    (loadTable s)[i] = s.mem.read (s.src.toNat + i.val) := by
  unfold loadTable
  rw [engineBytes_get, if_neg h]

theorem afterEngineRead_free_of_calm {s : State} (n : Nat) (h : s.contested = []) :
    (afterEngineRead n s).free = s.free := by
  rw [afterEngineRead_of_calm s n h]

/-- Settles O27, by the issue check and the SEQ step of LDLUT. -/
theorem ldlutLoadsLutFromMemory : Obligations.LdlutLoadsLutFromMemory := by
  refine fun s => ⟨fun hb => ?_, fun hb hr hm => ?_⟩
  · exact (command_of_idle .ldlut ldlutWork hb).trans (congrArg _ (issue_of_load s rfl))
  · refine ⟨loadTable s, (afterEngineRead 256 s).free, loadTable_get s, afterEngineRead_free_of_calm 256, ?_⟩
    refine (command_of_running ldlutWork hb hr).trans ?_
    rw [ldlutWork, if_pos hm]
    rfl

/-- Settles O28, by the issue check and the SEQ step of LDINV. -/
theorem ldinvLoadsInvFromMemory : Obligations.LdinvLoadsInvFromMemory := by
  refine fun s => ⟨fun hb => ?_, fun hb hr hm => ?_⟩
  · exact (command_of_idle .ldinv ldinvWork hb).trans (congrArg _ (issue_of_load s rfl))
  · refine ⟨loadTable s, (afterEngineRead 256 s).free, loadTable_get s, afterEngineRead_free_of_calm 256, ?_⟩
    refine (command_of_running ldinvWork hb hr).trans ?_
    rw [ldinvWork, if_pos hm]
    rfl

/-- Settles O22, by cases over ENT's answer. -/
theorem genlutFillsLutOnceEntAnswers : Obligations.GenlutFillsLutOnceEntAnswers := by
  refine fun s => ⟨fun hb => ?_, fun hb hr => ?_⟩
  · exact (command_of_idle .genlut genlutWork hb).trans (congrArg _ (issue_of_unchecked s rfl))
  · have hwork : exec .genlut s = genlutWork s := command_of_running genlutWork hb hr
    refine ⟨fun ha => ?_, fun j ha => ?_, fun ha => ?_⟩
    · rw [hwork, genlutWork, ha]
    · rw [hwork, genlutWork, ha]
      rfl
    · rw [hwork, genlutWork, ha]
      rfl

theorem look_zeroTable (v : Byte) : look zeroTable v = 0 := by
  simp [look, zeroTable]

/-- Settles O31: the table that ZERO writes holds 0 everywhere. -/
theorem zeroClearsBothTables : Obligations.ZeroClearsBothTables := by
  refine fun s => ⟨fun hb => ?_, fun hb hr => ?_⟩
  · exact (command_of_idle .zero zeroWork hb).trans (congrArg _ (issue_of_unchecked s rfl))
  · exact ⟨zeroTable, zeroTable, fun v => ⟨look_zeroTable v, look_zeroTable v⟩, command_of_running zeroWork hb hr⟩

end Sys2Proof.Machine
end

section
/-! PROOFS. Regions of MEM and the 16-byte blocks in them (R62, R64); what settling leaves in the contested bytes (R75);
the net effect of a cipher command, byte by byte (R200, R201). -/

namespace Sys2Proof.Machine

/-! ### Bytes of a region -/

/-- Two reads of `n` bytes agree exactly when the bytes do. -/
theorem readBytes_eq_iff (m m' : Memory) (a b n : Nat) :
    m.readBytes a n = m'.readBytes b n ↔ ∀ j, j < n → m.read (a + j) = m'.read (b + j) := by
  simp [Memory.readBytes, Vector.ext_iff]

/-- MemRead gives back what MemWrite has written (R62). -/
theorem readBytes_writeBytes_same {n : Nat} (m : Memory) (a : Nat) (v : Vector Byte n) (h : m.wf = true) :
    (m.writeBytes a v.toList).readBytes a n = v := by
  refine Vector.ext fun j hj => ?_
  simp [Memory.readBytes, memory_read_writeBytes _ m a _ h]

/-- MemWrite changes no byte outside its region (R62). -/
theorem read_writeBytes_outside {n x : Nat} (m : Memory) (a : Nat) (v : Vector Byte n) (h : m.wf = true)
    (hx : ¬ inRegion x a n) : (m.writeBytes a v.toList).read x = m.read x := by
  rw [memory_read_writeBytes _ m a x h, Vector.length_toList, if_neg hx]

/-! ### Blocks of a buffer -/

section
variable {base : Word} {k n x : Nat}

theorem inRegion_of_block (hk : k < n) (h : inRegion x (blockAddr base k) 16) : inRegion x base.toNat (16 * n) := by
  simp only [blockAddr, Config.blockLen, inRegion] at *
  omega

theorem exists_block_of_inRegion (h : inRegion x base.toNat (16 * n)) :
    ∃ k, k < n ∧ ∃ j, j < 16 ∧ x = blockAddr base k + j := by
  refine ⟨(x - base.toNat) / 16, ?_, (x - base.toNat) % 16, Nat.mod_lt _ (by decide), ?_⟩
  · omega
  · simp only [blockAddr, Config.blockLen]
    omega

/-- Two blocks of one buffer share no byte. -/
theorem not_inRegion_of_block_ne {l : Nat} (hkl : k ≠ l) (h : inRegion x (blockAddr base k) 16) :
    ¬ inRegion x (blockAddr base l) 16 := by
  simp only [blockAddr, Config.blockLen, inRegion] at *
  omega

theorem inRegion_block_byte {j : Nat} (hj : j < 16) : inRegion (blockAddr base k + j) (blockAddr base k) 16 := by
  omega

end

/-- Writing one block of a buffer leaves the other blocks. -/
theorem readBytes_writeBytes_otherBlock {k l : Nat} (m : Memory) (base : Word) (v : Block) (h : m.wf = true)
    (hkl : k ≠ l) :
    (m.writeBytes (blockAddr base l) v.toList).readBytes (blockAddr base k) 16 = m.readBytes (blockAddr base k) 16 :=
  (readBytes_eq_iff _ _ _ _ _).2 fun _ hj =>
    read_writeBytes_outside m _ v h (not_inRegion_of_block_ne hkl (inRegion_block_byte hj))

/-! ### The net effect -/

section
variable (f : Block → Block) (m : Memory) (src dst : Word) (h : m.wf = true)
include h

theorem netEffect_wf : ∀ n, (netEffect f m src dst n).wf = true
  | 0 => h
  | n + 1 => memory_writeBytes_wf _ _ _ (netEffect_wf n)

/-- Each block is written once, from the memory as it was, and no later block touches it. -/
theorem netEffect_block {k : Nat} :
    ∀ n, k < n →
      (netEffect f m src dst n).readBytes (blockAddr dst k) 16 = f (m.readBytes (blockAddr src k) 16)
  | 0, hk => absurd hk (Nat.not_lt_zero k)
  | n + 1, hk => by
    have hwf := netEffect_wf f m src dst h n
    by_cases hkn : k = n
    · subst hkn
      exact readBytes_writeBytes_same _ _ _ hwf
    · exact (readBytes_writeBytes_otherBlock _ dst _ hwf hkn).trans (netEffect_block n (by omega))

theorem netEffect_outside {a : Nat} :
    ∀ n, ¬ inRegion a dst.toNat (16 * n) → (netEffect f m src dst n).read a = m.read a
  | 0, _ => rfl
  | n + 1, ha => by
    have hblock : ¬ inRegion a (blockAddr dst n) 16 := fun hin => ha (inRegion_of_block (Nat.lt_succ_self n) hin)
    rw [netEffect, read_writeBytes_outside _ _ _ (netEffect_wf f m src dst h n) hblock]
    exact netEffect_outside n (by omega)

end

/-- Settles O49, by induction on the number of blocks. -/
theorem netEffectTransformsEveryBlock : Obligations.NetEffectTransformsEveryBlock :=
  fun f m src dst n h => ⟨netEffect_wf f m src dst h n, fun _ => netEffect_block f m src dst h n,
    fun _ => netEffect_outside f m src dst h n⟩

/-! ### Contested bytes -/

/-- Settling writes one free value to each contested byte; a byte that stands once in the list keeps its value. -/
theorem settleBytes_read_contested (l : List Nat) (free : Nat) (m : Memory) (h : m.wf = true) (hl : l.Nodup)
    {a : Nat} (ha : a ∈ l) :
    ∃ n, free ≤ n ∧ n < free + l.length ∧ (settleBytes free l m).read a = Config.anyByte n := by
  induction l generalizing free m with
  | nil => cases ha
  | cons b l ih =>
    obtain ⟨hb, hl⟩ := List.nodup_cons.1 hl
    have hwf := memory_write_wf m b (Config.anyByte free) h
    rw [List.length_cons]
    rcases List.mem_cons.1 ha with rfl | ha
    · refine ⟨free, le_rfl, by omega, ?_⟩
      rw [settleBytes, settleBytes_read l _ _ hwf a hb, memory_read_write_same m a _ h]
    · obtain ⟨n, hlo, hhi, hn⟩ := ih (free + 1) _ hwf hl ha
      exact ⟨n, by omega, by omega, hn⟩

/-- Settles O17: what settling leaves in a byte that is not contested, and in one that is. -/
theorem contestedBytesEndFree : Obligations.ContestedBytesEndFree :=
  fun s hwf hnodup => ⟨rfl, settleBytes_wf _ _ _ hwf, fun a ha => settleBytes_read _ _ _ hwf a ha,
    fun _ ha => settleBytes_read_contested _ s.free _ hwf hnodup ha⟩

theorem mem_contest (s : State) (a x : Nat) : x ∈ (contest a s).contested ↔ x = a ∨ x ∈ s.contested := by
  rw [contest_contested]
  split
  · next ha => exact ⟨.inr, fun h => h.elim (fun e => e ▸ ha) id⟩
  · exact List.mem_cons

/-- A HOST write into a running command's buffers (R75). -/
theorem hostMemWrite_of_buffer {s : State} {a : Nat} (b : Byte) (ha : a < s.memBytes)
    (hbuf : s.inSource a = true ∨ s.inDest a = true) : hostMemWrite a b s = .next (contest a s) := by
  rw [hostMemWrite, if_neg (Nat.not_le.2 ha), if_pos (Bool.or_eq_true _ _ ▸ hbuf)]

/-- A HOST read of a running command's destination, or of a contested byte (R75). -/
theorem hostMemRead_of_buffer {s : State} {a : Nat} (ha : a < s.memBytes)
    (hbuf : s.inDest a = true ∨ a ∈ s.contested) :
    hostMemRead a s =
      .next { reply (.byte (Config.anyByte s.free)) (contest a s) with free := s.free + 1 } := by
  rw [hostMemRead, if_neg (Nat.not_le.2 ha), if_pos (by simpa using hbuf)]

/-- Settles O16, by the rules of WM and RM at a byte of the running command's buffers. -/
theorem hostAccessToBusyBuffersIsContested : Obligations.HostAccessToBusyBuffersIsContested := by
  refine fun s a rest ha => ⟨fun b h hbuf => ?_, fun h hbuf => ?_⟩
  · exact ⟨_, mem_contest s a,
      (step_of_memWrite h).trans (hostMemWrite_of_buffer (s := s.afterTxn rest) b ha hbuf)⟩
  · exact ⟨_, mem_contest s a,
      (step_of_memRead h).trans (hostMemRead_of_buffer (s := s.afterTxn rest) ha hbuf)⟩

end Sys2Proof.Machine
end

section
/-! PROOFS. The micro-operations by the phase of the lane whose turn it is (R151, R152, R186), and which accesses to MEM
can fault (R61, R62, R69). -/

namespace Sys2Proof.Machine

/-! ### PACK and UNPACK -/

section
variable {s : State} {r : LaneRegs} {rows : Rows}

/-- The state after PACK on a block inside MEM. -/
def packed (r : LaneRegs) (s : State) : State :=
  (afterEngineRead 16 s).setSelLane (.run .ltr r (packRows (engineBytes s (blockAddr s.src r.blk) 16)))

/-- The state after UNPACK on a block inside MEM. -/
def unpacked (r : LaneRegs) (rows : Rows) (s : State) : State :=
  (engineWrite (blockAddr s.dst r.blk) (unpackRows rows).toList s).setSelLane .idle

theorem execPack_of_pack (hl : s.selLane = some (.pack r)) :
    execPack s = if s.holds (blockAddr s.src r.blk) 16 then .next (packed r s) else .fault .engineAddress := by
  rw [execPack, hl]
  rfl

theorem execUnpack_of_unpack (hl : s.selLane = some (.run .unpack r rows)) :
    execUnpack s =
      if s.holds (blockAddr s.dst r.blk) 16 then .next (unpacked r rows s) else .fault .engineAddress := by
  rw [execUnpack, hl]
  rfl

end

theorem unpacked_eq (s : State) (r : LaneRegs) (rows : Rows) :
    unpacked r rows s = { s with
      mem := s.mem.writeBytes (blockAddr s.dst r.blk) (unpackRows rows).toList
      lanes := s.lanes.set s.sel.lane .idle } := by
  rw [unpacked, engineWrite, State.setSelLane]

/-- A packed row in numbers: its bytes in ascending order, the first one high (R63). -/
theorem packRows_toNat (b : Block) (i : Fin 8) :
    (packRows b)[i].toNat = 256 * (b[2 * i.val]'(by omega)).toNat + (b[2 * i.val + 1]'(by omega)).toNat := by
  simp [packRows, rowOf_toNat]

/-- The bytes of an unpacked row in numbers. -/
theorem unpackRows_toNat (rows : Rows) (i : Fin 8) :
    ((unpackRows rows)[2 * i.val]'(by omega)).toNat = rows[i].toNat / 256 ∧
      ((unpackRows rows)[2 * i.val + 1]'(by omega)).toNat = rows[i].toNat % 256 := by
  have hodd : (2 * i.val + 1) / 2 = i.val := by omega
  simp [unpackRows, hiByte_toNat, loByte_toNat, hodd]

/-- A byte that MemWrite has written. -/
theorem read_writeBytes_inside {n j : Nat} (m : Memory) (a : Nat) (v : Vector Byte n) (h : m.wf = true) (hj : j < n) :
    (m.writeBytes a v.toList).read (a + j) = v[j] := by
  simp [memory_read_writeBytes _ m a _ h, hj]

/-- Settles O35, by the rule of PACK and the two bytes of a row. -/
theorem packReadsTheBlockBigEndian : Obligations.PackReadsTheBlockBigEndian := by
  intro s r hl
  have hpack : exec .pack s = _ := execPack_of_pack hl
  refine ⟨fun hm => ?_, fun hm => hpack.trans (if_neg (Nat.not_le.2 hm))⟩
  refine ⟨packRows (engineBytes s (blockAddr s.src r.blk) 16), (afterEngineRead 16 s).free, fun i hhi hlo => ?_,
    afterEngineRead_free_of_calm 16, hpack.trans (if_pos hm)⟩
  have hbyte (k : Fin 16) (hk : s.src.toNat + 16 * r.blk + k.val ∉ s.contested) :
      (engineBytes s (blockAddr s.src r.blk) 16)[k] = s.mem.read (s.src.toNat + 16 * r.blk + k.val) :=
    (engineBytes_get s _ 16 k).trans (if_neg hk)
  rw [packRows_toNat, ← hbyte ⟨2 * i.val, by omega⟩ hhi, ← hbyte ⟨2 * i.val + 1, by omega⟩ hlo]
  rfl

/-- Settles O36, by the rule of UNPACK and the two bytes of a row. -/
theorem unpackWritesTheBlockBigEndian : Obligations.UnpackWritesTheBlockBigEndian := by
  intro s r rows hl hwf
  have hunpack : exec .unpack s = _ := execUnpack_of_unpack hl
  have hblock : s.dst.toNat + 16 * r.blk = blockAddr s.dst r.blk := rfl
  rw [hblock]
  rw [unpacked_eq] at hunpack
  refine ⟨fun hm => ⟨_, fun i => ?_, fun a ha => read_writeBytes_outside _ _ _ hwf ha, hunpack.trans (if_pos hm)⟩,
    fun hm => hunpack.trans (if_neg (Nat.not_le.2 hm))⟩
  obtain ⟨hhi, hlo⟩ := unpackRows_toNat rows i
  rw [read_writeBytes_inside _ _ _ hwf (by omega), read_writeBytes_inside _ _ _ hwf (by omega)]
  exact ⟨hhi, hlo⟩

/-! ### When the engine would fault -/

/-- Where `exec` faults: a load or a store of a table, PACK or UNPACK, whose region does not lie inside MEM. -/
inductive EngineFault (i : Instr) (s : State) : Prop
  | load (hi : i = .ldlut ∨ i = .ldinv) (hb : s.busy = true) (hr : s.running = some i)
      (hm : ¬ s.holds s.src.toNat 256)
  | store (hi : i = .rdlut ∨ i = .rdinv) (hb : s.busy = true) (hr : s.running = some i)
      (hm : ¬ s.holds s.dst.toNat 256)
  | pack (r : LaneRegs) (hl : s.selLane = some (.pack r)) (hm : ¬ s.holds (blockAddr s.src r.blk) 16)
  | unpack (r : LaneRegs) (rows : Rows) (hl : s.selLane = some (.run .unpack r rows))
      (hm : ¬ s.holds (blockAddr s.dst r.blk) 16)

/-- How an instruction ends: in a next state, or in a fault for the reason `P`; never in a refusal. -/
inductive Answers (P : Prop) : Result State → Prop
  | next (t : State) : Answers P (.next t)
  | fault (h : P) : Answers P (.fault .engineAddress)

namespace Answers

variable {P : Prop}

theorem ite {c : Prop} [Decidable c] {a b : Result State} (ha : c → Answers P a) (hb : ¬ c → Answers P b) :
    Answers P (if c then a else b) := by
  by_cases h : c
  · simpa only [if_pos h] using ha h
  · simpa only [if_neg h] using hb h

theorem command {i : Instr} {work : State → Result State} {s : State}
    (hw : s.busy = true → s.running = some i → Answers P (work s)) : Answers P (command i work s) := by
  rcases command_cases i work s with ⟨-, e⟩ | ⟨hb, hr, e⟩ | ⟨-, -, e⟩
  · exact e ▸ .next _
  · exact e ▸ hw hb hr
  · exact e ▸ .next _

theorem cipherWork (i : Instr) (d : Dir) (s : State) : Answers P (cipherWork i d s) :=
  .ite (fun _ => .next _) fun _ => .ite (fun _ => .next _) fun _ => .next _

theorem not_refused {o : Result State} (h : Answers P o) (r : Refusal) : o ≠ .refused r := by
  cases h <;> simp

theorem exists_next {o : Result State} (h : Answers P o) (hP : ¬ P) : ∃ t, o = .next t := by
  cases h with
  | next t => exact ⟨t, rfl⟩
  | fault h => exact absurd h hP

end Answers

/-- Every instruction has an outcome, and the only fault is that of an engine access outside MEM. -/
theorem exec_answers (i : Instr) (s : State) : Answers (EngineFault i s) (exec i s) := by
  cases i with
  | genlut =>
    refine Answers.command fun _ _ => ?_
    unfold genlutWork
    split <;> exact .next _
  | derinv => exact .command fun _ _ => .ite (fun _ => .next _) fun _ => .next _
  | encb => exact .command fun _ _ => .cipherWork _ _ s
  | decb => exact .command fun _ _ => .cipherWork _ _ s
  | enc => exact .command fun _ _ => .cipherWork _ _ s
  | dec => exact .command fun _ _ => .cipherWork _ _ s
  | zero => exact .command fun _ _ => .next _
  | ldlut => exact .command fun hb hr => .ite (fun _ => .next _) fun hm => .fault (.load (.inl rfl) hb hr hm)
  | ldinv => exact .command fun hb hr => .ite (fun _ => .next _) fun hm => .fault (.load (.inr rfl) hb hr hm)
  | rdlut => exact .command fun hb hr => .ite (fun _ => .next _) fun hm => .fault (.store (.inl rfl) hb hr hm)
  | rdinv => exact .command fun hb hr => .ite (fun _ => .next _) fun hm => .fault (.store (.inr rfl) hb hr hm)
  | abort c =>
    exact .ite (fun _ => .ite (fun _ => .next _) fun _ => .next _) fun _ => .ite (fun _ => .next _) fun _ => .next _
  | clr => exact .ite (fun _ => .next _) fun _ => .next _
  | pack =>
    change Answers _ (execPack s)
    unfold execPack
    split
    · next r hl => exact .ite (fun _ => .next _) fun hm => .fault (.pack r hl hm)
    · exact .next _
  | ltr | arc | cs | rtl =>
    simp only [exec, execLtr, execArc, execCs, execRtl]
    split <;> exact .next _
  | unpack =>
    change Answers _ (execUnpack s)
    unfold execUnpack
    split
    · next r rows hl => exact .ite (fun _ => .next _) fun hm => .fault (.unpack r rows hl hm)
    · exact .next _

/-! ### The issue checks put the running command's regions inside MEM -/

section
variable {s : State} {i : Instr} {p : Profile}

/-- A cipher command reads and writes its NBLK blocks (R37, R93). -/
theorem cipherSizes {d : Dir} (hd : dirOf? i = some d) (hp : profileOf i = some p) (he : issueError p s = none) :
    p.src.size s.len = 16 * blockCount i s.len ∧ p.dst.size s.len = 16 * blockCount i s.len := by
  obtain ⟨hlen, -⟩ := (issueError_eq_none_iff p s).1 he
  have hbulk (hb : p.bulk = true) : 16 * (s.len.toNat / 16) = s.len.toNat := by
    have : s.len.toNat % 16 = 0 := by simpa [lengthBad, hb, Config.blockLen] using hlen
    omega
  cases i <;> cases hd <;> cases hp
  · exact ⟨rfl, rfl⟩
  · exact ⟨rfl, rfl⟩
  · exact ⟨(hbulk rfl).symm, (hbulk rfl).symm⟩
  · exact ⟨(hbulk rfl).symm, (hbulk rfl).symm⟩

/-- The block that a lane works on is one of the running cipher command's (R202). -/
theorem Inv.lane_block (h : Inv s) {l : Lane} {r : LaneRegs} (hl : s.selLane = some l) (hr : l.regs? = some r) :
    ∃ i p, s.running = some i ∧ profileOf i = some p ∧ RunningOk i p s ∧ dirOf? i = some r.dir ∧
      r.blk < blockCount i s.len := by
  obtain ⟨hb, i, hi⟩ := h.running_of_selLane hl hr
  obtain ⟨p, hp⟩ := profileOf_of_running hi
  have hok := h.runningOk hb hi hp
  have ⟨_, _, _, hlt, hdirs, _⟩ := hok
  have hmem : l ∈ s.lanes := List.mem_of_getElem? hl
  have hblk : r.blk ∈ activeBlocks s := List.mem_filterMap.2 ⟨l, hmem, by rw [hr]; rfl⟩
  exact ⟨i, p, hi, hp, hok, hdirs l hmem r hr, hlt _ (List.mem_append_left _ hblk)⟩

theorem Inv.lane_holds (h : Inv s) {l : Lane} {r : LaneRegs} (hl : s.selLane = some l) (hr : l.regs? = some r) :
    s.holds (blockAddr s.src r.blk) 16 ∧ s.holds (blockAddr s.dst r.blk) 16 := by
  obtain ⟨i, p, -, hp, ⟨he, -⟩, hd, hlt⟩ := h.lane_block hl hr
  obtain ⟨-, -, haddr, -⟩ := (issueError_eq_none_iff p s).1 he
  obtain ⟨hsrc, hdst⟩ := not_not.1 haddr
  obtain ⟨esrc, edst⟩ := cipherSizes hd hp he
  simp only [State.holds, blockAddr, Config.blockLen, regionInMem] at *
  omega

/-- Under the invariant the engine touches no address that does not exist (R62, R69). -/
theorem Inv.not_engineFault (h : Inv s) : ¬ EngineFault i s := by
  have hregions (p : Profile) (hp : profileOf i = some p) (hb : s.busy = true) (hr : s.running = some i) :
      regionInMem s.src (p.src.size s.len) s.memBytes ∧ regionInMem s.dst (p.dst.size s.len) s.memBytes := by
    obtain ⟨he, -⟩ := h.runningOk hb hr hp
    obtain ⟨-, -, haddr, -⟩ := (issueError_eq_none_iff p s).1 he
    exact not_not.1 haddr
  rintro (⟨hi, hb, hr, hm⟩ | ⟨hi, hb, hr, hm⟩ | ⟨r, hl, hm⟩ | ⟨r, rows, hl, hm⟩)
  · rcases hi with rfl | rfl <;> exact hm ((hregions _ rfl hb hr).1.resolve_left (Nat.succ_ne_zero 255))
  · rcases hi with rfl | rfl <;> exact hm ((hregions _ rfl hb hr).2.resolve_left (Nat.succ_ne_zero 255))
  · exact hm (h.lane_holds hl rfl).1
  · exact hm (h.lane_holds hl rfl).2

theorem Inv.exec_next (h : Inv s) (i : Instr) : ∃ t, exec i s = .next t :=
  (exec_answers i s).exists_next h.not_engineFault

end

/-! ### How a step ends -/

/-- The HOST's next transaction, at its turn, is a byte access to an address that does not exist (R61). -/
def HostOutside (s : State) : Prop :=
  ∃ (a : Nat) (rest : List HostTxn), s.memBytes ≤ a ∧ ((∃ b, HostTurn s (.wm a b) rest) ∨ HostTurn s (.rm a) rest)

/-- How a step ends: by itself, with the fault of a HOST access, or as an instruction does on a state that satisfies the
invariant when `s` does. -/
inductive StepEnds (s : State) : Result State → Prop
  | next (t : State) : StepEnds s (.next t)
  | outside (h : HostOutside s) : StepEnds s (.fault .hostAddress)
  | runs (i : Instr) (t : State) (ht : Inv s → Inv t) : StepEnds s (exec i t)

section
variable {s : State}

theorem hostMemWrite_ends {a : Nat} {b : Byte} {rest : List HostTxn} (h : HostTurn s (.wm a b) rest) :
    StepEnds s (hostMemWrite a b (s.afterTxn rest)) := by
  unfold hostMemWrite
  split
  · next ha => exact .outside ⟨a, rest, ha, .inl ⟨b, h⟩⟩
  · split <;> exact .next _

theorem hostMemRead_ends {a : Nat} {rest : List HostTxn} (h : HostTurn s (.rm a) rest) :
    StepEnds s (hostMemRead a (s.afterTxn rest)) := by
  unfold hostMemRead
  split
  · next ha => exact .outside ⟨a, rest, ha, .inr h⟩
  · split <;> exact .next _

/-- The turn and the transaction taken off are no part of the invariant. -/
theorem Inv.afterTxn (h : Inv s) (rest : List HostTxn) : Inv (s.afterTxn rest) := h.withEnv _ _ _ _ _ _ _ _

theorem hostWrite_ends (n : Nat) (w : Word) (rest : List HostTxn) :
    StepEnds s (hostWrite n w (s.afterTxn rest)).outcome := by
  rcases hostWrite_cases n w (s.afterTxn rest) with
    ⟨i, -, -, -, e⟩ | ⟨i, -, -, e⟩ | ⟨-, -, e⟩ | ⟨-, -, -, e⟩ | e <;> rw [e]
  · exact .runs i _ fun h => h.afterTxn rest
  · exact .runs i _ fun h => h.afterTxn rest
  · exact .next _
  · exact .next _
  · exact .next _

/-- With no transaction left the HOST's turn changes nothing but the schedule. -/
theorem step_of_emptyScript (ht : s.turn = .host) (hs : s.script = []) : step s = .next s.popTurn := by
  rw [step_eq_outcome, nextMove_of_host ht, hostMove, popTurn_script, hs]
  rfl

/-- `wait` polls STATUS and stays on the script while BUSY = 1 (R101). -/
theorem step_of_wait {rest : List HostTxn} (h : HostTurn s .wait rest) :
    step s = .next (reply (.word (statusWord s)) (s.afterTxn (if s.busy = true then s.script else rest))) := by
  obtain ⟨ht, hs⟩ := h
  rw [step_eq_outcome, nextMove_of_host ht, hostMove, popTurn_script, hs]
  rfl

theorem step_ends (s : State) : StepEnds s (step s) := by
  cases ht : s.turn with
  | host =>
    cases hs : s.script with
    | nil => exact step_of_emptyScript ht hs ▸ .next _
    | cons x rest =>
      cases x with
      | wr n w => exact step_of_write ⟨ht, hs⟩ ▸ hostWrite_ends n w rest
      | rd n => exact step_of_read ⟨ht, hs⟩ ▸ .next _
      | wm a b => exact step_of_memWrite ⟨ht, hs⟩ ▸ hostMemWrite_ends ⟨ht, hs⟩
      | rm a => exact step_of_memRead ⟨ht, hs⟩ ▸ hostMemRead_ends ⟨ht, hs⟩
      | wait => exact step_of_wait ⟨ht, hs⟩ ▸ .next _
  | seq k l =>
    rw [step_eq_outcome, nextMove_of_seq ht]
    rcases seqMove_cases { s.popTurn with sel := ⟨k, l⟩ } with ⟨i, -, -, -, e⟩ | e <;> rw [e]
    · exact .runs i _ fun h => h.withEnv _ _ _ _ _ _ _ _
    · exact .next _
  | lane n =>
    rw [step_eq_outcome, nextMove_of_lane ht]
    rcases laneMove_cases { s.popTurn with sel := ⟨s.sel.blk, n⟩ } with ⟨l, i, -, -, e⟩ | e <;> rw [e]
    · exact .runs i _ fun h => h.withEnv _ _ _ _ _ _ _ _
    · exact .next _
  | ent =>
    rw [step_eq_outcome, nextMove_of_ent ht]
    exact .next _
  | reset => exact step_of_reset ht ▸ .next _

end

/-- Under the invariant an instruction has a next state, so only the HOST's access can fault. -/
theorem StepEnds.hostOutside {s : State} {o : Result State} {f : Fault} (h : StepEnds s o) (hinv : Inv s)
    (hf : o = .fault f) : f = .hostAddress ∧ HostOutside s := by
  cases h with
  | next t => cases hf
  | outside h =>
    cases hf
    exact ⟨rfl, h⟩
  | runs i t ht =>
    obtain ⟨t', e⟩ := (ht hinv).exec_next i
    cases e.symm.trans hf

theorem StepEnds.not_refused {s : State} {o : Result State} (h : StepEnds s o) (r : Refusal) : o ≠ .refused r := by
  cases h with
  | next t => exact fun e => nomatch e
  | outside h => exact fun e => nomatch e
  | runs i t ht => exact (exec_answers i t).not_refused r

/-- Settles O10, by cases over how a step ends. -/
theorem onlyHostAccessOutsideMemFaults : Obligations.OnlyHostAccessOutsideMemFaults :=
  ⟨fun s _ hinv hf => (step_ends s).hostOutside hinv hf, fun i s => (exec_answers i s).not_refused,
    fun s => (step_ends s).not_refused⟩

end Sys2Proof.Machine
end

section
/-! PROOFS. What the rows of a lane hold at each stage of its block (R180, R181, R184, R186): the rounds that are done,
and the stages of the round that is under way. -/

namespace Sys2Proof.Machine

/-- One round of direction `d`. -/
def roundFn (d : Dir) (t : Table) : Nat → Rows → Rows :=
  match d with
  | .enc => encRound t
  | .dec => decRound t

theorem blockFn_eq_rounds (d : Dir) (t : Table) (b : Block) :
    blockFn d t b = unpackRows (rounds (roundFn d t) 8 (packRows b)) := by
  cases d <;> rfl

/-- The rows on entry to a stage of round `n` when the round began with rows `x`; UNPACK follows the whole round. -/
def stageRows (d : Dir) (t : Table) (n : Nat) (x : Rows) : Stage → Rows
  | .ltr => x
  | .arc =>
    match d with
    | .enc => ltrRows t x
    | .dec => csRows t (ltrRows t x)
  | .cs =>
    match d with
    | .enc => arcRows n (ltrRows t x)
    | .dec => ltrRows t x
  | .rtl =>
    match d with
    | .enc => csRows t (arcRows n (ltrRows t x))
    | .dec => arcRows (7 - n) (csRows t (ltrRows t x))
  | .unpack => roundFn d t n x

theorem rtlRows_stageRows (d : Dir) (t : Table) (n : Nat) (x : Rows) :
    rtlRows t (stageRows d t n x .rtl) = roundFn d t n x := by
  cases d <;> rfl

/-- The lane holds what the block operation of direction `d` with table `t` holds at its stage, when block `k` of the
source is `block k`. -/
def OnTrack (d : Dir) (t : Table) (block : Nat → Block) : Lane → Prop
  | .idle => True
  | .pack r => r.rnd = 0
  | .run st r rows =>
    (st = .unpack → r.rnd = 7) ∧
      rows = stageRows d t r.rnd (rounds (roundFn d t) r.rnd (packRows (block r.blk))) st

/-- The lane after its step at a stage other than UNPACK (R186). -/
def computed (t : Table) (r : LaneRegs) (rows : Rows) : Stage → Lane
  | .ltr => .run (afterLtr r.dir) r (ltrRows t rows)
  | .arc => .run (afterArc r.dir) r (arcRows (arcIndex r) rows)
  | .cs => .run (afterCs r.dir) r (csRows t rows)
  | .rtl => afterRtl r (rtlRows t rows)
  | .unpack => .run .unpack r rows

theorem computed_regs (t : Table) (r : LaneRegs) (rows : Rows) (st : Stage) :
    ∃ r', (computed t r rows st).regs? = some r' ∧ r'.dir = r.dir ∧ r'.blk = r.blk := by
  cases st with
  | rtl => exact afterRtl_regs r (rtlRows t rows)
  | ltr | arc | cs | unpack => exact ⟨r, rfl, rfl, rfl⟩

section
variable {d : Dir} {t : Table} {block : Nat → Block} {st : Stage} {r : LaneRegs} {rows : Rows}

/-- PACK puts the lane at the start of round 0. -/
theorem onTrack_packed (h : OnTrack d t block (.pack r)) :
    OnTrack d t block (.run .ltr r (packRows (block r.blk))) := by
  have hr : r.rnd = 0 := h
  exact ⟨nofun, by rw [hr]; rfl⟩

/-- RTL ends a round: the next one begins, or the block is done (R186). -/
theorem onTrack_afterRtl (hrows : rows = roundFn d t r.rnd (rounds (roundFn d t) r.rnd (packRows (block r.blk)))) :
    OnTrack d t block (afterRtl r rows) := by
  unfold afterRtl
  split
  · exact ⟨nofun, hrows⟩
  · exact ⟨fun _ => by omega, hrows⟩

/-- Each stage's step computes the rows of the next stage. -/
theorem onTrack_computed (h : OnTrack d t block (.run st r rows)) (hd : r.dir = d) (hst : st ≠ .unpack) :
    OnTrack d t block (computed t r rows st) := by
  obtain ⟨-, rfl⟩ := h
  subst hd
  cases st with
  | rtl => exact onTrack_afterRtl (rtlRows_stageRows _ _ _ _)
  | unpack => exact absurd rfl hst
  | ltr | arc | cs =>
    obtain ⟨dir, blk, rnd⟩ := r
    cases dir <;> exact ⟨nofun, rfl⟩

/-- At UNPACK the rows are those of the block function (R180, R181). -/
theorem unpackRows_of_onTrack (h : OnTrack d t block (.run .unpack r rows)) :
    unpackRows rows = blockFn d t (block r.blk) := by
  obtain ⟨hr, rfl⟩ := h
  rw [blockFn_eq_rounds, hr rfl]
  rfl

end

/-! ### A lane's turn by what the lane holds -/

section
variable {s : State} {r : LaneRegs} {rows : Rows} {st : Stage}

theorem laneMove_of_pack (hl : s.selLane = some (.pack r)) (hm : s.holds (blockAddr s.src r.blk) 16) :
    (laneMove s).outcome = .next (packed r s) := by
  rw [laneMove, hl]
  exact (execPack_of_pack hl).trans (if_pos hm)

theorem laneMove_of_unpack (hl : s.selLane = some (.run .unpack r rows)) (hm : s.holds (blockAddr s.dst r.blk) 16) :
    (laneMove s).outcome = .next (unpacked r rows s) := by
  rw [laneMove, hl]
  exact (execUnpack_of_unpack hl).trans (if_pos hm)

theorem laneMove_of_compute (hl : s.selLane = some (.run st r rows)) (hst : st ≠ .unpack) :
    (laneMove s).outcome = .next (s.setSelLane (computed (s.tableOf r.dir) r rows st)) := by
  rw [laneMove, hl]
  cases st with
  | ltr =>
    change execLtr s = _
    rw [execLtr, hl]
    rfl
  | arc =>
    change execArc s = _
    rw [execArc, hl]
    rfl
  | cs =>
    change execCs s = _
    rw [execCs, hl]
    rfl
  | rtl =>
    change execRtl s = _
    rw [execRtl, hl]
    rfl
  | unpack => exact absurd rfl hst

/-- An idle lane, or a number that is no lane's, takes no step (R185). -/
theorem laneMove_of_inactive (hl : s.selLane = none ∨ s.selLane = some .idle) : (laneMove s).outcome = .next s := by
  rcases hl with hl | hl
  · rw [laneMove, hl]
    rfl
  · rw [laneMove, hl]
    rfl

end

end Sys2Proof.Machine
end

section
/-! PROOFS. A cipher command from its acceptance on (R67, R182, R183, R187, R200 to R204, R224): what holds in every
state of its run, whatever the schedule, beside HOST transactions that do not interfere. The invariant has three parts.
Beside the command (`Alongside`): no byte is contested, tables and flags stay, and MEM outside the destination holds its
old bytes or what the HOST writes there. While it runs (`Underway`): each lane is on the way from the old bytes of its
source block to the result, and each destination block is old while its block is pending or in a lane, and is the result
after that. When it is over (`Over`): each destination block is old or the result, and without a write to CTRL the
command has completed. -/

namespace Sys2Proof.Machine

/-! ### The three parts of the invariant -/

section
variable (s₀ : State) (i : Instr) (d : Dir)

/-- Block `k` of the source at acceptance. -/
def sourceBlock (k : Nat) : Block := s₀.mem.readBytes (blockAddr s₀.src k) 16

/-- What destination block `k` is to hold in the end. -/
def resultBlock (k : Nat) : Block := blockFn d (s₀.tableOf d) (sourceBlock s₀ k)

/-- The destination blocks in `todo` are as they were, the others hold their results. -/
def BlocksAt (todo : List Nat) (m : Memory) : Prop :=
  ∀ k, k < blockCount i s₀.len →
    m.readBytes (blockAddr s₀.dst k) 16 =
      if k ∈ todo then s₀.mem.readBytes (blockAddr s₀.dst k) 16 else resultBlock s₀ d k

/-- Each destination block is old or new as a whole. -/
def BlocksWhole (m : Memory) : Prop :=
  ∀ k, k < blockCount i s₀.len →
    m.readBytes (blockAddr s₀.dst k) 16 = s₀.mem.readBytes (blockAddr s₀.dst k) 16 ∨
      m.readBytes (blockAddr s₀.dst k) 16 = resultBlock s₀ d k

/-- Outside the destination MEM reads as before or as the script writes it. -/
def OutsideKept (m : Memory) : Prop :=
  ∀ a, ¬ inRegion a s₀.dst.toNat (16 * blockCount i s₀.len) →
    m.read a = s₀.mem.read a ∨ ∃ b, .wm a b ∈ s₀.script ∧ m.read a = b

/-- What the run of the command from `s₀` leaves as it is, up to `t`. -/
structure Alongside (t : State) : Prop where
  script : ∀ x ∈ t.script, x ∈ s₀.script
  noReset : NoReset t
  calm : t.contested = []
  lut : t.lut = s₀.lut
  inv : t.inv = s₀.inv
  keyFlags : t.keyFlags = s₀.keyFlags
  outside : OutsideKept s₀ i t.mem

/-- The command accepted in `s₀` runs in `t`. -/
structure Underway (t : State) : Prop where
  busy : t.busy = true
  running : t.running = some i
  src : t.src = s₀.src
  dst : t.dst = s₀.dst
  len : t.len = s₀.len
  lanes : ∀ l ∈ t.lanes, OnTrack d (s₀.tableOf d) (sourceBlock s₀) l
  blocks : BlocksAt s₀ i d (activeBlocks t ++ t.pend) t.mem

/-- The command accepted in `s₀` has ended before `t`. -/
structure Over (t : State) : Prop where
  busy : t.busy = false
  whole : BlocksWhole s₀ i d t.mem
  completed : (∀ w, .wr 5 w ∉ s₀.script) → t.done = true ∧ t.err = false ∧ BlocksAt s₀ i d [] t.mem

/-- The state `t` is on a run of the command accepted in `s₀`. -/
structure OnRun (t : State) : Prop where
  along : Alongside s₀ i t
  phase : Underway s₀ i d t ∨ Over s₀ i d t

/-- The HOST's transactions do not interfere, but for writes to CTRL (R75, R204). -/
def QuietOrControl : Prop :=
  ∀ x ∈ s₀.script, (∃ w, x = .wr 5 w) ∨ quietTxn s₀.src s₀.dst (16 * blockCount i s₀.len) x = true

end

section
variable {s₀ : State} {i : Instr} {d : Dir}

/-! ### The command that was accepted -/

theorem exec_of_cipher (hd : dirOf? i = some d) (s : State) : exec i s = command i (cipherWork i d) s := by
  cases i <;> cases hd <;> rfl

/-- A cipher command changes no flag at its completion (R28). -/
theorem okFlags_of_cipher (hd : dirOf? i = some d) (f : KeyFlags) : okFlags i f = f := by
  cases i <;> cases hd <;> rfl

/-- The abort of a cipher command spoils no table (R224). -/
theorem abortRunning_of_cipher {s : State} (hr : s.running = some i) (hd : dirOf? i = some d) :
    abortRunning s = runError .aborted (stopLanes s) := by
  have hspoil : spoilTable (some i) (stopLanes s) = stopLanes s := by cases i <;> cases hd <;> rfl
  rw [abortRunning, hr, hspoil]

theorem JustAccepted.runningOk (h : JustAccepted i d s₀) : ∃ p, profileOf i = some p ∧ issueError p s₀ = none := by
  obtain ⟨p, hp⟩ := profileOf_of_running h.running
  have ⟨he, _⟩ := h.inv.runningOk h.busy h.running hp
  exact ⟨p, hp, he⟩

/-- The two buffers of the command are one or disjoint (R70). -/
theorem JustAccepted.buffers (h : JustAccepted i d s₀) (hpos : 0 < blockCount i s₀.len) :
    aliasLegal s₀.src s₀.dst (16 * blockCount i s₀.len) := by
  obtain ⟨p, hp, he⟩ := h.runningOk
  obtain ⟨hsrc, hdst⟩ := cipherSizes h.dir hp he
  obtain ⟨-, -, -, hover⟩ := (issueError_eq_none_iff p s₀).1 he
  by_contra hnot
  exact hover ⟨by omega, by omega, hdst ▸ hnot⟩

/-- The running command's buffers are those of the statement (R75). -/
theorem Underway.buffers (hacc : JustAccepted i d s₀) {t : State} (h : Underway s₀ i d t) (a : Nat) :
    (t.inSource a = true ↔ inRegion a s₀.src.toNat (16 * blockCount i s₀.len)) ∧
      (t.inDest a = true ↔ inRegion a s₀.dst.toNat (16 * blockCount i s₀.len)) := by
  obtain ⟨p, hp, he⟩ := hacc.runningOk
  obtain ⟨hsrc, hdst⟩ := cipherSizes hacc.dir hp he
  simp only [State.inSource, State.inDest, h.busy, srcSize_of_running h.running hp, dstSize_of_running h.running hp,
    h.src, h.dst, h.len, hsrc, hdst, Bool.true_and, decide_eq_true_eq, and_self]

/-- A byte that the HOST may write is in neither buffer. -/
theorem QuietOrControl.wm_outside (hq : QuietOrControl s₀ i) {a : Nat} {b : Byte} (h : .wm a b ∈ s₀.script) :
    ¬ inRegion a s₀.src.toNat (16 * blockCount i s₀.len) ∧ ¬ inRegion a s₀.dst.toNat (16 * blockCount i s₀.len) := by
  rcases hq _ h with ⟨w, e⟩ | hquiet
  · cases e
  · exact of_decide_eq_true hquiet

theorem QuietOrControl.rm_outside (hq : QuietOrControl s₀ i) {a : Nat} (h : .rm a ∈ s₀.script) :
    ¬ inRegion a s₀.dst.toNat (16 * blockCount i s₀.len) := by
  rcases hq _ h with ⟨w, e⟩ | hquiet
  · cases e
  · exact of_decide_eq_true hquiet

theorem QuietOrControl.not_cmd (hq : QuietOrControl s₀ i) {w : Word} : .wr 0 w ∉ s₀.script := by
  intro h
  rcases hq _ h with ⟨w, e⟩ | hquiet
  · cases e
  · simp [quietTxn] at hquiet

/-! ### MEM along the run -/

section
variable {m : Memory} {todo : List Nat}

theorem BlocksAt.whole (h : BlocksAt s₀ i d todo m) : BlocksWhole s₀ i d m := by
  intro k hk
  rw [h k hk]
  split
  · exact .inl rfl
  · exact .inr rfl

/-- Only which blocks are still to do counts. -/
theorem BlocksAt.congr (h : BlocksAt s₀ i d todo m) {todo' : List Nat} (e : ∀ k, k ∈ todo' ↔ k ∈ todo) :
    BlocksAt s₀ i d todo' m := by
  intro k hk
  simp only [e]
  exact h k hk

/-- A block's result is written, and no other block changes. -/
theorem BlocksAt.writeBlock (h : BlocksAt s₀ i d todo m) (hwf : m.wf = true) {todo' : List Nat} {k : Nat}
    (hk : k ∉ todo') (e : ∀ j, j ≠ k → (j ∈ todo' ↔ j ∈ todo)) :
    BlocksAt s₀ i d todo' (m.writeBytes (blockAddr s₀.dst k) (resultBlock s₀ d k).toList) := by
  intro j hj
  by_cases hjk : j = k
  · subst hjk
    rw [readBytes_writeBytes_same _ _ _ hwf, if_neg hk]
  · rw [readBytes_writeBytes_otherBlock _ _ _ hwf hjk, h j hj]
    simp only [e j hjk]

/-- A byte outside the destination is in none of its blocks. -/
theorem readBytes_write_outside {a n k : Nat} {base : Word} (m : Memory) (b : Byte) (hwf : m.wf = true) (hk : k < n)
    (ha : ¬ inRegion a base.toNat (16 * n)) :
    (m.write a b).readBytes (blockAddr base k) 16 = m.readBytes (blockAddr base k) 16 := by
  refine (readBytes_eq_iff _ _ _ _ _).2 fun j hj => memory_read_write_other m a b _ hwf ?_
  rintro rfl
  exact ha (inRegion_of_block hk (inRegion_block_byte hj))

theorem OutsideKept.write (h : OutsideKept s₀ i m) (hwf : m.wf = true) {a : Nat} {b : Byte}
    (hwm : .wm a b ∈ s₀.script) : OutsideKept s₀ i (m.write a b) := by
  intro x hx
  rw [memory_read_write m a b x hwf]
  split
  · next e => exact .inr ⟨b, e ▸ hwm, rfl⟩
  · exact h x hx

theorem OutsideKept.writeBlock (h : OutsideKept s₀ i m) (hwf : m.wf = true) {k : Nat} (hk : k < blockCount i s₀.len)
    (v : Block) : OutsideKept s₀ i (m.writeBytes (blockAddr s₀.dst k) v.toList) := by
  intro x hx
  rw [read_writeBytes_outside m _ v hwf fun hin => hx (inRegion_of_block hk hin)]
  exact h x hx

/-- The source block of a block that is still to do holds its old bytes: in place it is the destination block, and else
nobody writes the source. -/
theorem BlocksAt.read_source (h : BlocksAt s₀ i d todo m) (hacc : JustAccepted i d s₀) (hq : QuietOrControl s₀ i)
    (hout : OutsideKept s₀ i m) {k : Nat} (hk : k < blockCount i s₀.len) (htodo : k ∈ todo) :
    m.readBytes (blockAddr s₀.src k) 16 = sourceBlock s₀ k := by
  rcases hacc.buffers (Nat.zero_lt_of_lt hk) with hplace | hdisjoint
  · have hblock := h k hk
    rwa [if_pos htodo, hplace] at hblock
  · refine (readBytes_eq_iff _ _ _ _ _).2 fun j hj => ?_
    have hin : inRegion (blockAddr s₀.src k + j) s₀.src.toNat (16 * blockCount i s₀.len) :=
      inRegion_of_block hk (inRegion_block_byte hj)
    have hnot : ¬ inRegion (blockAddr s₀.src k + j) s₀.dst.toNat (16 * blockCount i s₀.len) := by omega
    rcases hout _ hnot with hsame | ⟨b, hwm, -⟩
    · exact hsame
    · exact absurd hin (hq.wm_outside hwm).1

end

/-! ### What changes nothing of the command -/

section
variable {t : State}

/-- The parts of a state that are the environment's may change, as long as no transaction and no reset event appears. -/
theorem OnRun.withEnv (h : OnRun s₀ i d t) (script : List HostTxn) (replies : List Reply) (sched : List Turn)
    (sel : Selection) (hscript : ∀ x ∈ script, x ∈ t.script) (hsched : ∀ x ∈ sched, x ∈ t.sched) :
    OnRun s₀ i d { t with script := script, replies := replies, sched := sched, sel := sel } where
  along := ⟨fun x hx => h.along.script x (hscript x hx), fun x hx => h.along.noReset x (hsched x hx), h.along.calm,
    h.along.lut, h.along.inv, h.along.keyFlags, h.along.outside⟩
  phase := h.phase.imp (fun u => ⟨u.busy, u.running, u.src, u.dst, u.len, u.lanes, u.blocks⟩)
    fun o => ⟨o.busy, o.whole, o.completed⟩

theorem OnRun.popTurn (h : OnRun s₀ i d t) (c : Selection) : OnRun s₀ i d { t.popTurn with sel := c } :=
  h.withEnv _ _ _ _ (fun _ hx => hx) fun _ => List.mem_of_mem_tail

theorem OnRun.afterTxn (h : OnRun s₀ i d t) {rest : List HostTxn} (hrest : ∀ x ∈ rest, x ∈ t.script) :
    OnRun s₀ i d (t.afterTxn rest) :=
  h.withEnv _ _ _ _ hrest fun _ => List.mem_of_mem_tail

theorem OnRun.reply (h : OnRun s₀ i d t) (r : Reply) : OnRun s₀ i d (reply r t) :=
  h.withEnv _ _ _ _ (fun _ hx => hx) fun _ hx => hx

/-! ### What the HOST does -/

/-- The HOST writes a byte outside both buffers. -/
theorem OnRun.writeByte (h : OnRun s₀ i d t) (hq : QuietOrControl s₀ i) (hwf : t.mem.wf = true) {a : Nat} {b : Byte}
    (hwm : .wm a b ∈ s₀.script) : OnRun s₀ i d { t with mem := t.mem.write a b } where
  along := ⟨h.along.script, h.along.noReset, h.along.calm, h.along.lut, h.along.inv, h.along.keyFlags,
    h.along.outside.write hwf hwm⟩
  phase := by
    have hblock : ∀ {k}, k < blockCount i s₀.len →
        (t.mem.write a b).readBytes (blockAddr s₀.dst k) 16 = t.mem.readBytes (blockAddr s₀.dst k) 16 :=
      fun hk => readBytes_write_outside t.mem b hwf hk (hq.wm_outside hwm).2
    refine h.phase.imp (fun u => ⟨u.busy, u.running, u.src, u.dst, u.len, u.lanes, fun k hk => ?_⟩)
      fun o => ⟨o.busy, fun k hk => ?_, fun hno => ?_⟩
    · exact (hblock hk).trans (u.blocks k hk)
    · simp only [hblock hk]
      exact o.whole k hk
    · obtain ⟨hdone, herr, hblocks⟩ := o.completed hno
      exact ⟨hdone, herr, fun k hk => (hblock hk).trans (hblocks k hk)⟩

/-- After the command the HOST may write SRC, DST and LEN (R33). -/
theorem OnRun.operandWrite (h : OnRun s₀ i d t) (ho : Over s₀ i d t) (n : Nat) (w : Word) :
    OnRun s₀ i d (operandWrite n w t) := by
  have ha := h.along
  unfold Machine.operandWrite
  split <;>
    exact ⟨⟨ha.script, ha.noReset, ha.calm, ha.lut, ha.inv, ha.keyFlags, ha.outside⟩,
      .inr ⟨ho.busy, ho.whole, ho.completed⟩⟩

/-- The HOST aborts the command (R224): the blocks are as they are at that moment. -/
theorem OnRun.abort (h : OnRun s₀ i d t) (hd : dirOf? i = some d) (hu : Underway s₀ i d t) {w : Word}
    (hw : .wr 5 w ∈ s₀.script) : OnRun s₀ i d (abortRunning t) := by
  have ha := h.along
  have hmem : (runError .aborted (stopLanes t)).mem = t.mem := by
    show settleBytes t.free t.contested t.mem = t.mem
    rw [ha.calm, settleBytes_nil]
  rw [abortRunning_of_cipher hu.running hd]
  refine ⟨⟨ha.script, ha.noReset, rfl, ha.lut, ha.inv, ha.keyFlags, ?_⟩,
    .inr ⟨rfl, ?_, fun hno => absurd hw (hno w)⟩⟩
  · rw [hmem]
    exact ha.outside
  · rw [hmem]
    exact hu.blocks.whole

/-- After the command the HOST may clear the status (R225). -/
theorem OnRun.clear (h : OnRun s₀ i d t) (ho : Over s₀ i d t) {w : Word} (hw : .wr 5 w ∈ s₀.script) :
    OnRun s₀ i d (clearStatus t) where
  along := ⟨h.along.script, h.along.noReset, h.along.calm, h.along.lut, h.along.inv, h.along.keyFlags,
    h.along.outside⟩
  phase := .inr ⟨ho.busy, ho.whole, fun hno => absurd hw (hno w)⟩

/-! ### What the command does -/

/-- One lane, PEND and MEM change, and MEM is right for the blocks that are then still to do. -/
theorem OnRun.setLane (h : OnRun s₀ i d t) (hu : Underway s₀ i d t) (l' : Lane) (ks : List Nat) {m : Memory}
    (hl' : OnTrack d (s₀.tableOf d) (sourceBlock s₀) l') (hout : OutsideKept s₀ i m)
    (hblocks : BlocksAt s₀ i d (activeBlocks (t.setSelLane l') ++ ks) m) :
    OnRun s₀ i d ({ t with pend := ks, mem := m }.setSelLane l') where
  along := ⟨h.along.script, h.along.noReset, h.along.calm, h.along.lut, h.along.inv, h.along.keyFlags, hout⟩
  phase := .inl
    { busy := hu.busy
      running := hu.running
      src := hu.src
      dst := hu.dst
      len := hu.len
      lanes := fun l hl => (List.mem_or_eq_of_mem_set hl).elim (hu.lanes l) fun e => e ▸ hl'
      blocks := hblocks }

/-- A lane and PEND change, and the blocks they hold stay the same (R186, R202). -/
theorem OnRun.moveBlocks (h : OnRun s₀ i d t) (hu : Underway s₀ i d t) (l' : Lane) (ks : List Nat)
    (hl' : OnTrack d (s₀.tableOf d) (sourceBlock s₀) l')
    (hblocks : (activeBlocks (t.setSelLane l') ++ ks).Perm (activeBlocks t ++ t.pend)) :
    OnRun s₀ i d ({ t with pend := ks }.setSelLane l') :=
  h.setLane hu l' ks hl' h.along.outside (hu.blocks.congr fun _ => hblocks.mem_iff)

/-- A dispatch moves a block from PEND into a lane. -/
theorem activeBlocks_dispatch_perm (hk : t.sel.blk ∈ t.pend) (hl : t.selLane = some .idle) (d : Dir) :
    (activeBlocks (t.setSelLane (activate d t.sel.blk)) ++ t.pend.erase t.sel.blk).Perm (activeBlocks t ++ t.pend) :=
  calc
    List.Perm _ (t.sel.blk :: otherBlocks t ++ t.pend.erase t.sel.blk) :=
      (activeBlocks_setSelLane_perm hl _).append_right _
    List.Perm _ (otherBlocks t ++ t.sel.blk :: t.pend.erase t.sel.blk) := List.perm_middle.symm
    List.Perm _ (activeBlocks t ++ t.pend) := (activeBlocks_perm hl).symm.append (List.perm_cons_erase hk).symm

theorem OnRun.dispatch (h : OnRun s₀ i d t) (hu : Underway s₀ i d t) : OnRun s₀ i d (dispatch d t) := by
  rcases dispatch_cases d t with ⟨hk, hl, e⟩ | ⟨-, e⟩ <;> rw [e]
  · exact h.moveBlocks hu (activate d t.sel.blk) _ rfl (activeBlocks_dispatch_perm hk hl d)
  · exact h

/-- The command completes (R203) when no block is left to do. -/
theorem OnRun.complete (h : OnRun s₀ i d t) (hd : dirOf? i = some d) (hu : Underway s₀ i d t) (herr : t.err = false)
    (hp : t.pend = []) (hidle : t.allIdle = true) : OnRun s₀ i d (complete i t) := by
  have ha := h.along
  have hmem : (Machine.complete i t).mem = t.mem := by rw [complete_mem, ha.calm, settleBytes_nil]
  have hblocks : BlocksAt s₀ i d [] (Machine.complete i t).mem := by
    have hall := hu.blocks
    rwa [activeBlocks_of_allIdle hidle, hp, ← hmem] at hall
  refine ⟨⟨ha.script, ha.noReset, rfl, ha.lut, ha.inv, ?_, ?_⟩,
    .inr ⟨rfl, hblocks.whole, fun _ => ⟨rfl, herr, hblocks⟩⟩⟩
  · rw [complete_keyFlags, okFlags_of_cipher hd]
    exact ha.keyFlags
  · rw [hmem]
    exact ha.outside

/-- SEQ's turn while the command runs (R202, R203). -/
theorem OnRun.cipherWork (h : OnRun s₀ i d t) (hd : dirOf? i = some d) (hu : Underway s₀ i d t) (herr : t.err = false)
    {t' : State} (hs : cipherWork i d t = .next t') : OnRun s₀ i d t' := by
  rcases cipherWork_cases i d t with ⟨-, e⟩ | ⟨hp, ha, e⟩ | ⟨-, -, e⟩ <;> cases e.symm.trans hs
  · exact h.dispatch hu
  · exact h.complete hd hu herr hp ha
  · exact h

/-- A lane's step within its block keeps the block. -/
theorem activeBlocks_move_perm {l l' : Lane} {r r' : LaneRegs} (hl : t.selLane = some l) (hr : l.regs? = some r)
    (hr' : l'.regs? = some r') (hk : r'.blk = r.blk) :
    (activeBlocks (t.setSelLane l') ++ t.pend).Perm (activeBlocks t ++ t.pend) := by
  have hold := activeBlocks_perm hl
  have hnew := activeBlocks_setSelLane_perm hl l'
  rw [hr, Option.map_some] at hold
  rw [hr', Option.map_some, hk] at hnew
  exact (hnew.trans hold.symm).append_right _

/-- What a lane at work is, in a state of the run. -/
theorem Underway.lane (hu : Underway s₀ i d t) (hacc : JustAccepted i d s₀) (hinv : Inv t) {l : Lane} {r : LaneRegs}
    (hl : t.selLane = some l) (hr : l.regs? = some r) :
    OnTrack d (s₀.tableOf d) (sourceBlock s₀) l ∧ r.dir = d ∧
      r.blk < blockCount i s₀.len ∧ (activeBlocks t).Perm (r.blk :: otherBlocks t) ∧
      (activeBlocks t ++ t.pend).Nodup := by
  obtain ⟨j, p, hj, -, ⟨-, -, hnodup, -⟩, hdir, hlt⟩ := hinv.lane_block hl hr
  obtain rfl : j = i := Option.some.inj (hj.symm.trans hu.running)
  have hperm := activeBlocks_perm hl
  rw [hr, Option.map_some] at hperm
  exact ⟨hu.lanes l (List.mem_of_getElem? hl), Option.some.inj (hdir.symm.trans hacc.dir), hu.len ▸ hlt, hperm, hnodup⟩

/-- PACK reads the old bytes of its source block. -/
theorem OnRun.pack (h : OnRun s₀ i d t) (hacc : JustAccepted i d s₀) (hq : QuietOrControl s₀ i) (hinv : Inv t)
    (hu : Underway s₀ i d t) {r : LaneRegs} (hl : t.selLane = some (.pack r)) : OnRun s₀ i d (packed r t) := by
  obtain ⟨htrack, -, hlt, hperm, -⟩ := hu.lane hacc hinv hl rfl
  have htodo : r.blk ∈ activeBlocks t ++ t.pend :=
    List.mem_append_left _ (hperm.mem_iff.2 List.mem_cons_self)
  have hread : engineBytes t (blockAddr t.src r.blk) 16 = sourceBlock s₀ r.blk := by
    rw [engineBytes_of_calm t _ _ h.along.calm, hu.src]
    exact hu.blocks.read_source hacc hq h.along.outside hlt htodo
  rw [packed, afterEngineRead_of_calm t 16 h.along.calm, hread]
  exact h.moveBlocks hu _ t.pend (onTrack_packed htrack) (activeBlocks_move_perm hl rfl rfl rfl)

theorem Alongside.tableOf (h : Alongside s₀ i t) (d : Dir) : t.tableOf d = s₀.tableOf d := by
  cases d
  · exact h.lut
  · exact h.inv

theorem OnRun.compute (h : OnRun s₀ i d t) (hacc : JustAccepted i d s₀) (hinv : Inv t) (hu : Underway s₀ i d t)
    {st : Stage} {r : LaneRegs} {rows : Rows} (hl : t.selLane = some (.run st r rows)) (hst : st ≠ .unpack) :
    OnRun s₀ i d (t.setSelLane (computed (t.tableOf r.dir) r rows st)) := by
  obtain ⟨htrack, hdir, -⟩ := hu.lane hacc hinv hl rfl
  obtain ⟨r', hr', -, hk⟩ := computed_regs (t.tableOf r.dir) r rows st
  have hnext := onTrack_computed htrack hdir hst
  rw [← h.along.tableOf d, ← hdir] at hnext
  refine h.moveBlocks hu _ t.pend ?_ (activeBlocks_move_perm hl rfl hr' hk)
  rw [← h.along.tableOf d, ← hdir]
  exact hnext

/-- UNPACK writes the result of its block, and the block is done. -/
theorem OnRun.unpack (h : OnRun s₀ i d t) (hacc : JustAccepted i d s₀) (hinv : Inv t) (hu : Underway s₀ i d t)
    {r : LaneRegs} {rows : Rows} (hl : t.selLane = some (.run .unpack r rows)) :
    OnRun s₀ i d (unpacked r rows t) := by
  obtain ⟨htrack, -, hlt, hperm, hnodup⟩ := hu.lane hacc hinv hl rfl
  have hwf := hinv.memory.1
  have hresult : unpackRows rows = resultBlock s₀ d r.blk := unpackRows_of_onTrack htrack
  have hrest : (activeBlocks (t.setSelLane .idle)).Perm (otherBlocks t) := activeBlocks_setSelLane_perm hl .idle
  have hdone : r.blk ∉ activeBlocks (t.setSelLane .idle) ++ t.pend := by
    have hcons := (hperm.append_right t.pend).nodup_iff.1 hnodup
    rw [List.cons_append, List.nodup_cons] at hcons
    simpa only [List.mem_append, hrest.mem_iff] using hcons.1
  have hothers (k : Nat) (hk : k ≠ r.blk) :
      k ∈ activeBlocks (t.setSelLane .idle) ++ t.pend ↔ k ∈ activeBlocks t ++ t.pend := by
    simp only [List.mem_append, hperm.mem_iff, hrest.mem_iff, List.mem_cons, hk, false_or]
  rw [unpacked, engineWrite, hresult]
  refine h.setLane hu .idle t.pend trivial ?_ ?_ <;> rw [hu.dst]
  · exact h.along.outside.writeBlock hwf hlt _
  · exact hu.blocks.writeBlock hwf hdone hothers

end
end

end Sys2Proof.Machine
end

section
/-! PROOFS. Every step of a cipher command's run keeps what holds along it (R186, R202 to R204): the HOST's turn by its
transaction, SEQ's and the lanes' turns by what they have to do. From that, schedule independence (R204) and the whole
blocks of an abort (R224, R67). -/

namespace Sys2Proof.Machine

section
variable {s₀ : State} {i : Instr} {d : Dir} {t t' : State}

/-! ### The HOST's turn -/

theorem execAbort_of_running (c : Bool) (hb : t.busy = true) (hz : t.running ≠ some .zero) :
    execAbort c t = .next (abortRunning t) := by
  rw [execAbort, if_pos hb, if_neg hz]

theorem execAbort_of_idle (c : Bool) (hb : t.busy = false) :
    execAbort c t = .next (if c = true then clearStatus t else t) := by
  rw [execAbort, if_neg (by simp [hb])]
  split <;> rfl

theorem execClr_eq (t : State) : execClr t = .next (if t.busy = true then t else clearStatus t) := by
  unfold execClr
  split <;> rfl

/-- A control request (R224 to R226): while the command runs ABORT ends it, after it the status may be cleared. -/
theorem OnRun.controlRequest (h : OnRun s₀ i d t) (hd : dirOf? i = some d) {w : Word} (hw : .wr 5 w ∈ s₀.script)
    {j : Instr} (hj : decode (.ctrlw w) = .ok j) (hs : exec j t = .next t') : OnRun s₀ i d t' := by
  rcases instr_of_ctrlw hj with ⟨rfl, -⟩ | ⟨rfl, -⟩
  · rcases h.phase with hu | ho
    · have hzero : t.running ≠ some .zero := by
        rw [hu.running]
        rintro ⟨⟩
        cases hd
      cases (execAbort_of_running _ hu.busy hzero).symm.trans hs
      exact h.abort hd hu hw
    · cases (execAbort_of_idle _ ho.busy).symm.trans hs
      split
      · exact h.clear ho hw
      · exact h
  · cases (execClr_eq t).symm.trans hs
    rcases h.phase with hu | ho
    · rwa [if_pos hu.busy]
    · rw [if_neg (by simp [ho.busy])]
      exact h.clear ho hw

/-- A write to a register: CTRL makes a request, while the command runs all others are dropped, after it they store. -/
theorem OnRun.registerWrite (h : OnRun s₀ i d t) (hd : dirOf? i = some d) (hq : QuietOrControl s₀ i) {n : Nat}
    {w : Word} (hw : .wr n w ∈ s₀.script) (hs : (hostWrite n w t).outcome = .next t') : OnRun s₀ i d t' := by
  rcases hostWrite_cases n w t with ⟨j, rfl, -⟩ | ⟨j, rfl, hj, e⟩ | ⟨rfl, -⟩ | ⟨hb, -, -, e⟩ | e
  · exact absurd hw hq.not_cmd
  · rw [e] at hs
    exact h.controlRequest hd hw hj hs
  · exact absurd hw hq.not_cmd
  · rw [e] at hs
    cases hs
    rcases h.phase with hu | ho
    · cases hb.symm.trans hu.busy
    · exact h.operandWrite ho n w
  · rw [e] at hs
    cases hs
    exact h

/-- A byte outside both buffers is written to MEM at once. -/
theorem OnRun.memWrite (h : OnRun s₀ i d t) (hacc : JustAccepted i d s₀) (hq : QuietOrControl s₀ i)
    (hwf : t.mem.wf = true) {a : Nat} {b : Byte} (hwm : .wm a b ∈ s₀.script) (hs : hostMemWrite a b t = .next t') :
    OnRun s₀ i d t' := by
  have hfree : t.inSource a = false ∧ t.inDest a = false := by
    rcases h.phase with hu | ho
    · obtain ⟨hsrc, hdst⟩ := hu.buffers hacc a
      obtain ⟨hnsrc, hndst⟩ := hq.wm_outside hwm
      exact ⟨Bool.eq_false_iff.2 (mt hsrc.1 hnsrc), Bool.eq_false_iff.2 (mt hdst.1 hndst)⟩
    · simp [State.inSource, State.inDest, ho.busy]
  by_cases ha : a < t.memBytes
  · cases (hostMemWrite_of_free b ha hfree.1 hfree.2).symm.trans hs
    exact h.writeByte hq hwf hwm
  · rw [hostMemWrite, if_pos (Nat.not_lt.1 ha)] at hs
    cases hs

/-- A byte outside the destination is read from MEM. -/
theorem OnRun.memRead (h : OnRun s₀ i d t) (hacc : JustAccepted i d s₀) (hq : QuietOrControl s₀ i) {a : Nat}
    (hrm : .rm a ∈ s₀.script) (hs : hostMemRead a t = .next t') : OnRun s₀ i d t' := by
  have hdst : t.inDest a = false := by
    rcases h.phase with hu | ho
    · exact Bool.eq_false_iff.2 (mt (hu.buffers hacc a).2.1 (hq.rm_outside hrm))
    · simp [State.inDest, ho.busy]
  have hcalm : a ∉ t.contested := by simp [h.along.calm]
  by_cases ha : a < t.memBytes
  · cases (hostMemRead_of_free ha hdst hcalm).symm.trans hs
    exact h.reply _
  · rw [hostMemRead, if_pos (Nat.not_lt.1 ha)] at hs
    cases hs

theorem OnRun.hostStep (h : OnRun s₀ i d t) (hacc : JustAccepted i d s₀) (hq : QuietOrControl s₀ i) (hinv : Inv t)
    (ht : t.turn = .host) (hs : step t = .next t') : OnRun s₀ i d t' := by
  cases hscript : t.script with
  | nil =>
    cases (step_of_emptyScript ht hscript).symm.trans hs
    exact h.popTurn t.sel
  | cons x rest =>
    have hx : x ∈ s₀.script := h.along.script x (hscript ▸ List.mem_cons_self)
    have hrest : ∀ y ∈ rest, y ∈ t.script := fun y hy => hscript ▸ List.mem_cons_of_mem x hy
    have hafter := h.afterTxn hrest
    cases x with
    | wr n w => exact hafter.registerWrite hacc.dir hq hx ((step_of_write ⟨ht, hscript⟩).symm.trans hs)
    | rd n =>
      cases (step_of_read ⟨ht, hscript⟩).symm.trans hs
      exact hafter.reply _
    | wm a b => exact hafter.memWrite hacc hq hinv.memory.1 hx ((step_of_memWrite ⟨ht, hscript⟩).symm.trans hs)
    | rm a => exact hafter.memRead hacc hq hx ((step_of_memRead ⟨ht, hscript⟩).symm.trans hs)
    | wait =>
      cases (step_of_wait ⟨ht, hscript⟩).symm.trans hs
      refine (h.afterTxn ?_).reply _
      split
      · exact fun _ hy => hy
      · exact hrest

/-! ### SEQ's turn and the lanes' turns -/

theorem OnRun.seqStep (h : OnRun s₀ i d t) (hd : dirOf? i = some d) (hinv : Inv t)
    (hs : (seqMove t).outcome = .next t') : OnRun s₀ i d t' := by
  rcases seqMove_cases t with ⟨j, hb, -, hj, e⟩ | e <;> rw [e] at hs
  · rcases h.phase with hu | ho
    · obtain rfl : j = i := Option.some.inj (hj.symm.trans hu.running)
      obtain ⟨-, herr, -⟩ := hinv.status_of_busy hb
      have hwork : exec j t = Machine.cipherWork j d t :=
        (exec_of_cipher hd t).trans (command_of_running _ hb hj)
      exact h.cipherWork hd hu herr (hwork.symm.trans hs)
    · cases hb.symm.trans ho.busy
  · cases hs
    exact h

/-- A lane at work belongs to the command, which is then not over. -/
theorem OnRun.underway_of_lane (h : OnRun s₀ i d t) (hinv : Inv t) {l : Lane} {r : LaneRegs} (hl : t.selLane = some l)
    (hr : l.regs? = some r) : Underway s₀ i d t := by
  obtain ⟨hb, -⟩ := hinv.running_of_selLane hl hr
  exact h.phase.resolve_right fun ho => Bool.noConfusion (hb.symm.trans ho.busy)

theorem OnRun.laneStep (h : OnRun s₀ i d t) (hacc : JustAccepted i d s₀) (hq : QuietOrControl s₀ i) (hinv : Inv t)
    (hs : (laneMove t).outcome = .next t') : OnRun s₀ i d t' := by
  cases hl : t.selLane with
  | none =>
    cases (laneMove_of_inactive (.inl hl)).symm.trans hs
    exact h
  | some l =>
    cases l with
    | idle =>
      cases (laneMove_of_inactive (.inr hl)).symm.trans hs
      exact h
    | pack r =>
      cases (laneMove_of_pack hl (hinv.lane_holds hl rfl).1).symm.trans hs
      exact h.pack hacc hq hinv (h.underway_of_lane hinv hl rfl) hl
    | run st r rows =>
      have hu := h.underway_of_lane hinv hl rfl
      by_cases hst : st = .unpack
      · subst hst
        cases (laneMove_of_unpack hl (hinv.lane_holds hl rfl).2).symm.trans hs
        exact h.unpack hacc hinv hu hl
      · cases (laneMove_of_compute hl hst).symm.trans hs
        exact h.compute hacc hinv hu hl hst

/-- ENT has nothing to answer: no GENLUT runs. -/
theorem OnRun.entStep (h : OnRun s₀ i d t) (hd : dirOf? i = some d) : OnRun s₀ i d (entStep t) := by
  rcases entStep_cases t with ⟨a, rest, hb, hr, -⟩ | e
  · rcases h.phase with hu | ho
    · cases hu.running.symm.trans hr
      cases hd
    · cases hb.symm.trans ho.busy
  · rwa [e]

/-! ### Every step, every run -/

theorem turn_ne_reset (h : NoReset t) : t.turn ≠ .reset := by
  unfold State.turn
  split
  · next x rest hsched => exact h x (hsched ▸ List.mem_cons_self)
  · unfold State.defaultTurn
    split
    · split
      · exact nofun
      · split <;> exact nofun
    · exact nofun

theorem OnRun.step (h : OnRun s₀ i d t) (hacc : JustAccepted i d s₀) (hq : QuietOrControl s₀ i) (hinv : Inv t)
    (hs : step t = .next t') : OnRun s₀ i d t' := by
  have hturn (c : Selection) : Inv { t.popTurn with sel := c } := hinv.withEnv _ _ _ _ _ _ _ _
  cases ht : t.turn with
  | host => exact h.hostStep hacc hq hinv ht hs
  | seq k l =>
    rw [step_eq_outcome, nextMove_of_seq ht] at hs
    exact (h.popTurn ⟨k, l⟩).seqStep hacc.dir (hturn _) hs
  | lane n =>
    rw [step_eq_outcome, nextMove_of_lane ht] at hs
    exact (h.popTurn ⟨t.sel.blk, n⟩).laneStep hacc hq (hturn _) hs
  | ent =>
    rw [step_eq_outcome, nextMove_of_ent ht] at hs
    cases hs
    exact (h.popTurn t.sel).entStep hacc.dir
  | reset => exact absurd ht (turn_ne_reset h.along.noReset)

end

/-- A run of `n + 1` steps is a step and a run of `n`. -/
theorem step_of_run_succ {n : Nat} {s t : State} (h : core.run (n + 1) s = .next t) :
    ∃ u, step s = .next u ∧ core.run n u = .next t := by
  simp only [Host.Core.run] at h
  split at h
  · next u hs => exact ⟨u, hs, h⟩
  · cases h
  · cases h

/-- What every step keeps holds after every run. -/
theorem run_keeps {P : State → Prop} (hstep : ∀ s t, P s → step s = .next t → P t) :
    ∀ (n : Nat) {s t : State}, P s → core.run n s = .next t → P t
  | 0, _, _, h, hrun => by
    cases hrun
    exact h
  | n + 1, s, _, h, hrun => by
    obtain ⟨u, hs, hrest⟩ := step_of_run_succ hrun
    exact run_keeps hstep n (hstep s u h hs) hrest

section
variable {s₀ : State} {i : Instr} {d : Dir}

/-- The state in which the command has just been accepted. -/
theorem JustAccepted.onRun (hacc : JustAccepted i d s₀) (hreset : NoReset s₀) : OnRun s₀ i d s₀ where
  along := ⟨fun _ hx => hx, hreset, hacc.calm, rfl, rfl, rfl, fun _ _ => .inl rfl⟩
  phase := .inl
    { busy := hacc.busy
      running := hacc.running
      src := rfl
      dst := rfl
      len := rfl
      lanes := fun l hl => by
        rw [(allIdle_iff s₀).1 hacc.idle l hl]
        trivial
      blocks := fun k hk => by
        rw [activeBlocks_of_allIdle hacc.idle, hacc.pend, List.nil_append, if_pos (List.mem_range.2 hk)] }

theorem JustAccepted.onRun_of_run (hacc : JustAccepted i d s₀) (hq : QuietOrControl s₀ i) (hreset : NoReset s₀)
    {n : Nat} {t : State} (hrun : core.run n s₀ = .next t) : Inv t ∧ OnRun s₀ i d t :=
  run_keeps (P := fun u => Inv u ∧ OnRun s₀ i d u)
    (fun u v ⟨hinv, h⟩ hs => ⟨everyStepKeepsInvariant u v hinv hs, h.step hacc hq hinv hs⟩) n
    ⟨hacc.inv, hacc.onRun hreset⟩ hrun

/-- When every block holds its result, MEM is that of the net effect but for what the HOST has written. -/
theorem BlocksAt.netEffect {m : Memory} (h : BlocksAt s₀ i d [] m) (hout : OutsideKept s₀ i m)
    (hwf : s₀.mem.wf = true) (a : Nat) :
    m.read a = (netEffect (blockFn d (s₀.tableOf d)) s₀.mem s₀.src s₀.dst (blockCount i s₀.len)).read a ∨
      ∃ b, .wm a b ∈ s₀.script ∧ m.read a = b := by
  by_cases ha : inRegion a s₀.dst.toNat (16 * blockCount i s₀.len)
  · obtain ⟨k, hk, j, hj, rfl⟩ := exists_block_of_inRegion ha
    have hblock := h k hk
    rw [if_neg List.not_mem_nil, resultBlock, sourceBlock,
      ← netEffect_block (blockFn d (s₀.tableOf d)) s₀.mem s₀.src s₀.dst hwf _ hk] at hblock
    exact .inl ((readBytes_eq_iff _ _ _ _ _).1 hblock j hj)
  · rw [netEffect_outside _ _ _ _ hwf _ ha]
    exact hout a ha

end

/-- Settles O51: a run that is over and has no abort in its script has completed, with every block done. -/
theorem everyScheduleGivesTheNetEffect : Obligations.EveryScheduleGivesTheNetEffect := by
  intro s t i d n hacc hquiet hreset hrun hbusy
  obtain ⟨hinv, h⟩ := hacc.onRun_of_run (fun x hx => .inr (hquiet x hx)) hreset hrun
  have ho : Over s i d t := h.phase.resolve_left fun hu => Bool.noConfusion (hu.busy.symm.trans hbusy)
  obtain ⟨hdone, herr, hblocks⟩ := ho.completed fun w hw => by simpa [quietTxn] using hquiet _ hw
  exact ⟨hinv.memory.1, hblocks.netEffect h.along.outside hacc.inv.memory.1, hdone, herr, h.along.lut, h.along.inv,
    h.along.keyFlags⟩

/-- Settles O52: in both phases of a run every block is whole. -/
theorem abortLeavesWholeBlocks : Obligations.AbortLeavesWholeBlocks := by
  intro s t i d n hacc hq hreset hrun
  obtain ⟨-, h⟩ := hacc.onRun_of_run hq hreset hrun
  exact ⟨h.phase.elim (fun hu => hu.blocks.whole) fun ho => ho.whole, h.along.outside⟩

end Sys2Proof.Machine
end

section
/-! PROOFS. The encodings (R91, R92, R95 to R97): a code that decodes is the encoding of what it decodes to, up to the
ignored bits of a control word; which command words are reserved, and that such a word is rejected. -/

namespace Sys2Proof.Machine

/-! ### One lemma per format -/

/-- An opcode names the command whose word holds it (R91, R92). -/
theorem encode_of_decodeOp {op : BitVec 4} {i : Instr} (h : decodeOp op = .ok i) :
    encode i = .cmdw (op.setWidth 32) := by
  have hword : (op.setWidth 32).toNat = op.toNat := BitVec.toNat_setWidth_of_le (by decide)
  unfold decodeOp at h
  split at h <;> cases h
  all_goals
    next hop => exact congrArg Code.cmdw (BitVec.eq_of_toNat_eq (hword.trans hop).symm)

/-- A word whose bits 31:4 are 0 is its opcode (R91). -/
theorem eq_opcode_of_upper_zero {w : Word} (h : w.extractLsb' 4 28 = 0) : (w.extractLsb' 0 4).setWidth 32 = w := by
  have hupper : w.toNat / 16 % 2 ^ 28 = 0 := by
    simpa [BitVec.extractLsb'_toNat, Nat.shiftRight_eq_div_pow] using congrArg BitVec.toNat h
  have hw := w.isLt
  refine BitVec.eq_of_toNat_eq ?_
  rw [BitVec.toNat_setWidth, BitVec.extractLsb'_toNat, Nat.shiftRight_zero]
  omega

theorem encode_of_decodeCmdw {w : Word} {i : Instr} (h : decodeCmdw w = .ok i) : encode i = .cmdw w := by
  unfold decodeCmdw at h
  split at h
  · next hupper => rw [encode_of_decodeOp h, eq_opcode_of_upper_zero hupper]
  · cases h

/-- The bits of a control word that count (R96). -/
theorem controlBits_toNat (w : Word) : (w &&& 3).toNat = 2 * (w.getLsbD 1).toNat + (w.getLsbD 0).toNat := by
  have hmask : (w &&& 3).toNat = w.toNat % 4 := Nat.and_two_pow_sub_one_eq_mod w.toNat 2
  rw [hmask, BitVec.getLsbD, BitVec.getLsbD, Nat.toNat_testBit, Nat.toNat_testBit]
  omega

theorem encode_of_decodeCtrlw {w : Word} {i : Instr} (h : decode (.ctrlw w) = .ok i) :
    encode i = .ctrlw (w &&& 3) := by
  have hbits := controlBits_toNat w
  rcases instr_of_ctrlw h with ⟨rfl, h0⟩ | ⟨rfl, h0, h1⟩
  · rw [h0] at hbits
    refine congrArg Code.ctrlw (BitVec.eq_of_toNat_eq (Eq.trans ?_ hbits.symm))
    cases w.getLsbD 1 <;> rfl
  · rw [h0, h1] at hbits
    exact congrArg Code.ctrlw (BitVec.eq_of_toNat_eq hbits.symm)

theorem encode_of_decodePh {p : BitVec 3} {i : Instr} (h : decodePh p = .ok i) : encode i = .ph p := by
  unfold decodePh at h
  split at h <;> cases h
  all_goals
    next hp => exact congrArg Code.ph (BitVec.eq_of_toNat_eq hp.symm)

theorem decode_encode (i : Instr) : decode (encode i) = .ok i := by
  cases i with
  | abort c => cases c <;> rfl
  | _ => rfl

/-- Settles O1: every instruction is decoded from its code, and each format's codes are those of its instructions. -/
theorem decodeAndEncodeAgree : Obligations.DecodeAndEncodeAgree := by
  refine ⟨fun i _ => decode_encode i, fun c i h => ?_⟩
  cases c with
  | cmdw w => exact encode_of_decodeCmdw h
  | ctrlw w => exact encode_of_decodeCtrlw h
  | ph p => exact encode_of_decodePh h

/-! ### Reserved command words (R95) -/

theorem decodeOp_of_reserved {op : BitVec 4} (h : op.toNat = 0 ∨ 12 ≤ op.toNat) :
    decodeOp op = .error .reservedOpcode := by
  unfold decodeOp
  split <;> first | omega | rfl

theorem decode_of_reserved {w : Word} (h : w.toNat / 16 ≠ 0 ∨ w.toNat % 16 = 0 ∨ 12 ≤ w.toNat % 16) :
    ∃ e, decode (.cmdw w) = .error e := by
  rw [decode, decodeCmdw]
  split
  · next hupper =>
    have hop : (w.extractLsb' 0 4).toNat = w.toNat := by
      conv_rhs => rw [← eq_opcode_of_upper_zero hupper, BitVec.toNat_setWidth_of_le (by decide)]
    have hlt := (w.extractLsb' 0 4).isLt
    exact ⟨_, decodeOp_of_reserved (by omega)⟩
  · exact ⟨_, rfl⟩

/-- A word that is no command is rejected when it is written to CMD while BUSY = 0 (R95, R246). -/
theorem step_of_illegalWrite {s : State} {w : Word} {rest : List HostTxn} {e : Reject}
    (h : HostTurn s (.wr 0 w) rest) (hb : s.busy = false) (hd : decode (.cmdw w) = .error e) :
    step s = .next (reject .illegalCommand (s.afterTxn rest)) := by
  have hb' : (s.afterTxn rest).busy = false := hb
  rw [step_of_write h]
  simp [hostWrite, hb', hd, Move.outcome]

/-- Settles O3: a reserved word does not decode. -/
theorem reservedCommandWordsAreIllegal : Obligations.ReservedCommandWordsAreIllegal := by
  intro s w rest h hb hw
  obtain ⟨e, hd⟩ := decode_of_reserved hw
  exact step_of_illegalWrite h hb hd

/-- Settles O2, by evaluating the decoder at each of the ten codes. -/
theorem specWordsDecodeRight : Obligations.SpecWordsDecodeRight :=
  ⟨rfl, rfl, rfl, rfl, rfl, rfl, rfl, rfl, rfl, rfl⟩

/-- Settles O59: the expansions are lists of literal writes. -/
theorem pseudoInstructionsExpand : Obligations.PseudoInstructionsExpand :=
  ⟨fun _ _ _ => ⟨rfl, rfl, rfl, rfl, rfl, rfl, rfl, rfl⟩, rfl, rfl, rfl, rfl, rfl⟩

/-- Settles O58, by the rule of `wait`. -/
theorem waitPollsStatusUntilIdle : Obligations.WaitPollsStatusUntilIdle := by
  intro s rest h
  have ⟨_, hscript⟩ := h
  rw [step_of_wait h, hscript]
  rfl

end Sys2Proof.Machine
end

section
/-! PROOFS. The cipher commands at their issue and at their completion (R98, R99, R203, R252), the turns that do nothing
while BUSY = 0 (R103), and how BUSY rises and falls (R98, R103). -/

namespace Sys2Proof.Machine

/-! ### The issue checks of a cipher command (R252) -/

section
variable {s : State} {i : Instr} {p : Profile} {n : TableNeed}

/-- The checks in their order, each with what it answers. -/
theorem issue_of_checks (hp : profileOf i = some p) :
    issue i s =
      if lengthBad p s then reject .invalidLength s
      else if keyMissing p s then reject .notKeyed s
      else if addressBad p s then reject .badAddress s
      else if aliasBad p s then reject .badAlias s
      else accept i s := by
  rcases issueError_cases p s with ⟨h1, e⟩ | ⟨h1, h2, e⟩ | ⟨h1, h2, h3, e⟩ | ⟨h1, h2, h3, h4, e⟩ | ⟨h1, h2, h3, h4, e⟩
  · rw [issue_of_rejected hp e, if_pos h1]
  · rw [issue_of_rejected hp e, if_neg h1, if_pos h2]
  · rw [issue_of_rejected hp e, if_neg h1, if_neg h2, if_pos h3]
  · rw [issue_of_rejected hp e, if_neg h1, if_neg h2, if_neg h3, if_pos h4]
  · rw [issue_of_accepted hp e, if_neg h1, if_neg h2, if_neg h3, if_neg h4]

/-- R69 for a command that reads and writes the same number of bytes. -/
theorem addressBad_iff (e : Extent) (n : TableNeed) (s : State) :
    addressBad ⟨e, e, n⟩ s ↔
      0 < e.size s.len ∧
        (s.memBytes < s.src.toNat + e.size s.len ∨ s.memBytes < s.dst.toNat + e.size s.len) := by
  simp only [addressBad]
  omega

/-- R70 for a command that reads and writes the same number of bytes. -/
theorem aliasBad_iff (e : Extent) (n : TableNeed) (s : State) :
    aliasBad ⟨e, e, n⟩ s ↔
      0 < e.size s.len ∧ s.src ≠ s.dst ∧ s.src.toNat < s.dst.toNat + e.size s.len ∧
        s.dst.toNat < s.src.toNat + e.size s.len := by
  rw [aliasBad, aliasLegal, not_or, not_or, Nat.not_le, Nat.not_le, eq_comm]
  tauto

/-- The issue of a command on single blocks: no length to check, and 16 bytes at each address. -/
theorem issue_of_block (hp : profileOf i = some ⟨.bytes 16, .bytes 16, n⟩) :
    issue i s =
      if n.met s.keyFlags = false then reject .notKeyed s
      else if s.memBytes < s.src.toNat + 16 ∨ s.memBytes < s.dst.toNat + 16 then reject .badAddress s
      else if s.src ≠ s.dst ∧ s.src.toNat < s.dst.toNat + 16 ∧ s.dst.toNat < s.src.toNat + 16 then
        reject .badAlias s
      else accept i s := by
  have hlen : ¬ lengthBad ⟨.bytes 16, .bytes 16, n⟩ s := fun ⟨hbulk, _⟩ => nomatch hbulk
  rw [issue_of_checks hp, if_neg hlen]
  simp only [keyMissing, addressBad_iff, aliasBad_iff, Extent.size, Nat.zero_lt_succ, true_and]

/-- The issue of a command on LEN bytes (R205): its regions are checked only for LEN > 0. -/
theorem issue_of_bulk (hp : profileOf i = some ⟨.len, .len, n⟩) :
    issue i s =
      if s.len.toNat % 16 ≠ 0 then reject .invalidLength s
      else if n.met s.keyFlags = false then reject .notKeyed s
      else if 0 < s.len.toNat ∧
          (s.memBytes < s.src.toNat + s.len.toNat ∨ s.memBytes < s.dst.toNat + s.len.toNat) then
        reject .badAddress s
      else if 0 < s.len.toNat ∧ s.src ≠ s.dst ∧ s.src.toNat < s.dst.toNat + s.len.toNat ∧
          s.dst.toNat < s.src.toNat + s.len.toNat then
        reject .badAlias s
      else accept i s := by
  have hlen : lengthBad ⟨.len, .len, n⟩ s ↔ s.len.toNat % 16 ≠ 0 := ⟨fun h => h.2, fun h => ⟨rfl, h⟩⟩
  rw [issue_of_checks hp]
  simp only [hlen, keyMissing, addressBad_iff, aliasBad_iff, Extent.size]

end

/-- Settles O18, by the checks of a command on single blocks. -/
theorem blockCommandsIssueInCheckOrder : Obligations.BlockCommandsIssueInCheckOrder := by
  rintro s i key op hb (⟨rfl, rfl, rfl⟩ | ⟨rfl, rfl, rfl⟩)
  · exact (command_of_idle .encb _ hb).trans (congrArg _ (issue_of_block (n := .lut) rfl))
  · exact (command_of_idle .decb _ hb).trans (congrArg _ (issue_of_block (n := .inv) rfl))

/-- Settles O19, by the checks of a command on LEN bytes. -/
theorem bulkCommandsIssueInCheckOrder : Obligations.BulkCommandsIssueInCheckOrder := by
  rintro s i key op hb (⟨rfl, rfl, rfl⟩ | ⟨rfl, rfl, rfl⟩)
  · exact (command_of_idle .enc _ hb).trans (congrArg _ (issue_of_bulk (n := .lut) rfl))
  · exact (command_of_idle .dec _ hb).trans (congrArg _ (issue_of_bulk (n := .inv) rfl))

/-! ### Completion (R203) -/

theorem exec_of_runningCipher {s : State} {i : Instr} {d : Dir} (hd : dirOf? i = some d) (hb : s.busy = true)
    (hr : s.running = some i) : exec i s = cipherWork i d s :=
  (exec_of_cipher hd s).trans (command_of_running _ hb hr)

theorem cipherWork_of_done {s : State} (i : Instr) (d : Dir) (hp : s.pend = []) (ha : s.allIdle = true) :
    cipherWork i d s = .next (complete i s) := by
  rw [cipherWork, if_neg (by simp [hp]), if_pos ha]

/-- A cipher command's completion changes no key flag (R28). -/
theorem complete_of_cipher {i : Instr} {d : Dir} (hd : dirOf? i = some d) (s : State) :
    complete i s = settle { s with busy := false, done := true, entAns := none } := by
  rw [complete, okFlags_of_cipher hd]
  rfl

/-- Settles O21, by SEQ's step when no block is left. -/
theorem cipherCommandsComplete : Obligations.CipherCommandsComplete := by
  intro s i hb hr hi hp hidle
  obtain ⟨d, hd⟩ : ∃ d, dirOf? i = some d := by rcases hi with rfl | rfl | rfl | rfl <;> exact ⟨_, rfl⟩
  rw [exec_of_runningCipher hd hb hr, cipherWork_of_done i d hp ((allIdle_iff s).2 hidle), complete_of_cipher hd]

/-! ### Turns while BUSY = 0 (R103) -/

theorem step_of_seq {s : State} {k l : Nat} (ht : s.turn = .seq k l) :
    step s = (seqMove { s.popTurn with sel := ⟨k, l⟩ }).outcome := by
  rw [step_eq_outcome, nextMove_of_seq ht]

theorem step_of_lane {s : State} {l : Nat} (ht : s.turn = .lane l) :
    step s = (laneMove { s.popTurn with sel := ⟨s.sel.blk, l⟩ }).outcome := by
  rw [step_eq_outcome, nextMove_of_lane ht]

theorem step_of_ent {s : State} (ht : s.turn = .ent) : step s = .next (entStep s.popTurn) := by
  rw [step_eq_outcome, nextMove_of_ent ht]
  rfl

theorem seqMove_of_idle {s : State} (hb : s.busy = false) : seqMove s = .over (.next s) := by
  simp [seqMove, hb]

theorem laneMove_of_allIdle {s : State} (h : s.allIdle = true) : (laneMove s).outcome = .next s := by
  refine laneMove_of_inactive ?_
  cases hl : s.selLane with
  | none => exact .inl rfl
  | some l => exact .inr (congrArg some ((allIdle_iff s).1 h l (List.mem_of_getElem? hl)))

theorem entStep_of_idle {s : State} (hb : s.busy = false) : entStep s = s := by
  simp [entStep, hb]

/-- Settles O5: SEQ and ENT look at BUSY, and the lanes of a quiescent state are idle. -/
theorem nothingRunsWhileIdle : Obligations.NothingRunsWhileIdle := by
  intro s hinv hb
  obtain ⟨hidle, -⟩ := hinv.busy.1 hb
  refine ⟨fun k l ht => ?_, fun l ht => ?_, fun ht => ?_⟩
  · rw [step_of_seq ht, seqMove_of_idle (s := { s.popTurn with sel := ⟨k, l⟩ }) hb]
    rfl
  · exact (step_of_lane ht).trans (laneMove_of_allIdle (s := { s.popTurn with sel := ⟨s.sel.blk, l⟩ }) hidle)
  · rw [step_of_ent ht, entStep_of_idle (s := s.popTurn) hb]
    rfl

/-! ### BUSY rises only at an acceptance -/

section
variable {i : Instr} {s t : State}

theorem Effect.busy_rises (h : Effect i s t) (hs : s.busy = false) (ht : t.busy = true) :
    (∃ p, profileOf i = some p) ∧ t.cmd = cmdWord i := by
  cases h with
  | accepted p hb hp he => exact ⟨⟨p, hp⟩, rfl⟩
  | finished | tableWritten | tableFailed | zeroed | stored | aborted => cases ht
  | unchanged | rejected | dispatched | cleared | laneMoved | laneDone => cases hs.symm.trans ht

theorem profileOf_of_ph {p : BitVec 3} (h : decode (.ph p) = .ok i) : profileOf i = none := by
  simp only [decode, decodePh] at h
  split at h <;> cases h <;> rfl

theorem profileOf_of_ctrlw {w : Word} (h : decode (.ctrlw w) = .ok i) : profileOf i = none := by
  rcases instr_of_ctrlw h with ⟨rfl, -⟩ | ⟨rfl, -⟩ <;> rfl

theorem cmdWord_of_decode {w : Word} (h : decode (.cmdw w) = .ok i) : cmdWord i = w := by
  rw [cmdWord, encode_of_decodeCmdw h]

theorem operandWrite_busy (n : Nat) (w : Word) (s : State) : (operandWrite n w s).busy = s.busy := by
  unfold operandWrite
  split <;> rfl

theorem HostEffect.busy_rises (h : HostEffect s t) (hs : s.busy = false) (ht : t.busy = true) :
    ∃ w rest i, s.script = .wr 0 w :: rest ∧ decode (.cmdw w) = .ok i ∧ t.cmd = w := by
  cases h with
  | command w rest i t hscript hb hd he =>
    obtain ⟨-, hcmd⟩ := he.busy_rises hs ht
    exact ⟨w, rest, i, hscript, hd, hcmd.trans (cmdWord_of_decode hd)⟩
  | control w rest i t hscript hd he =>
    obtain ⟨⟨p, hp⟩, -⟩ := he.busy_rises hs ht
    cases (profileOf_of_ctrlw hd).symm.trans hp
  | operand n w rest hb =>
    rw [operandWrite_busy] at ht
    cases hs.symm.trans ht
  | illegal | answered | contested | wroteByte => cases hs.symm.trans ht

theorem entStep_busy (s : State) : (entStep s).busy = s.busy := by
  rcases entStep_cases s with ⟨a, rest, -, -, -, -, e⟩ | e <;> rw [e]

theorem StepEffect.busy_rises (h : StepEffect s t) (hs : s.busy = false) (ht : t.busy = true) :
    ∃ w rest i, HostTurn s (.wr 0 w) rest ∧ decode (.cmdw w) = .ok i ∧ t.cmd = w := by
  cases h with
  | host t hturn he =>
    obtain ⟨w, rest, i, hscript, hd, hcmd⟩ := he.busy_rises hs ht
    exact ⟨w, rest, i, ⟨hturn, hscript⟩, hd, hcmd⟩
  | seq k l i t hturn hb hr he => cases hs.symm.trans hb
  | lane n l i t hd he =>
    obtain ⟨⟨p, hp⟩, -⟩ := he.busy_rises hs ht
    cases (profileOf_of_ph hd).symm.trans hp
  | passed c => cases hs.symm.trans ht
  | ent =>
    rw [entStep_busy] at ht
    cases hs.symm.trans ht
  | reset => cases ht

/-! ### BUSY falls at the end of the running command, at its abort or at reset -/

theorem Effect.busy_falls (h : Effect i s t) (hs : s.busy = true) (ht : t.busy = false) :
    s.running = some i ∨ (∃ c, i = .abort c) ∧ t.err = true ∧ t.ecode = .aborted := by
  cases h with
  | finished d hb hr => exact .inl hr
  | tableWritten d x n hb hr => exact .inl hr
  | tableFailed d e x n hb hr => exact .inl hr
  | zeroed hb hr => exact .inl hr
  | stored x hb hr => exact .inl hr
  | aborted c hi => exact .inr ⟨⟨c, hi⟩, rfl, rfl⟩
  | accepted => cases ht
  | unchanged | rejected | dispatched | cleared | laneMoved | laneDone => cases hs.symm.trans ht

/-- How a run-time end shows in STATUS (R99, R255): DONE, or one of the two errors of the table commands. -/
def EndStatus (t : State) : Prop :=
  t.done = true ∨ t.err = true ∧ (t.ecode = .invalidLut ∨ t.ecode = .entropyUnavailable)

theorem endStatus_of_complete (i : Instr) (s : State) : EndStatus (complete i s) := .inl rfl

/-- The commands that write a table fail only for want of entropy, or at a table that is no permutation. -/
theorem endStatus_of_tableCommand {d : Dir} (hi : tableOut? i = some d) (hb : s.busy = true)
    (hr : s.running = some i) (h : exec i s = .next t) (ht : t.busy = false) : EndStatus t := by
  cases i with
  | genlut =>
    have hw : genlutWork s = .next t := (command_of_running genlutWork hb hr).symm.trans h
    unfold genlutWork at hw
    split at hw <;> cases hw
    · cases hb.symm.trans ht
    · exact .inr ⟨rfl, .inr rfl⟩
    · exact endStatus_of_complete _ _
  | derinv =>
    have hw : derinvWork s = .next t := (command_of_running derinvWork hb hr).symm.trans h
    unfold derinvWork at hw
    split at hw <;> cases hw
    · exact endStatus_of_complete _ _
    · exact .inr ⟨rfl, .inl rfl⟩
  | ldlut =>
    have hw : ldlutWork s = .next t := (command_of_running ldlutWork hb hr).symm.trans h
    unfold ldlutWork at hw
    split at hw <;> cases hw
    exact endStatus_of_complete _ _
  | ldinv =>
    have hw : ldinvWork s = .next t := (command_of_running ldinvWork hb hr).symm.trans h
    unfold ldinvWork at hw
    split at hw <;> cases hw
    exact endStatus_of_complete _ _
  | _ => cases hi

/-- At SEQ's turn the running command ends with one of its own outcomes. -/
theorem endStatus_of_exec (hb : s.busy = true) (hr : s.running = some i) (h : exec i s = .next t)
    (ht : t.busy = false) : EndStatus t := by
  cases exec_effect h with
  | finished | tableWritten | zeroed | stored => exact endStatus_of_complete _ _
  | tableFailed d e x n hb hr hi he => exact endStatus_of_tableCommand hi hb hr h ht
  | aborted c hi =>
    subst hi
    obtain ⟨p, hp⟩ := profileOf_of_running hr
    cases hp
  | accepted => cases ht
  | unchanged | rejected | dispatched | cleared | laneMoved | laneDone => cases hb.symm.trans ht

theorem HostEffect.busy_falls (h : HostEffect s t) (hs : s.busy = true) (ht : t.busy = false) :
    ∃ w rest, s.script = .wr 5 w :: rest ∧ w.getLsbD 0 = true ∧ t.err = true ∧ t.ecode = .aborted := by
  cases h with
  | control w rest i t hscript hd he =>
    rcases he.busy_falls hs ht with hr | ⟨⟨c, rfl⟩, herr, hcode⟩
    · obtain ⟨p, hp⟩ := profileOf_of_running hr
      cases (profileOf_of_ctrlw hd).symm.trans hp
    · rcases instr_of_ctrlw hd with ⟨-, hbit⟩ | ⟨hclr, -⟩
      · exact ⟨w, rest, hscript, hbit, herr, hcode⟩
      · cases hclr
  | command w rest i t hscript hb => cases hs.symm.trans hb
  | operand n w rest hb => cases hs.symm.trans hb
  | illegal rest hb => cases hs.symm.trans hb
  | answered | contested | wroteByte => cases hs.symm.trans ht

theorem seqMove_endStatus (h : (seqMove s).outcome = .next t) (hs : s.busy = true) (ht : t.busy = false) :
    EndStatus t := by
  rcases seqMove_cases s with ⟨i, hb, -, hr, e⟩ | e <;> rw [e] at h
  · exact endStatus_of_exec hb hr h ht
  · cases h
    cases hs.symm.trans ht

theorem step_busy_falls (h : step s = .next t) (hs : s.busy = true) (ht : t.busy = false) :
    (s.turn = .reset ∧ statusWord t = 0) ∨ ((∃ k l, s.turn = .seq k l) ∧ EndStatus t) ∨
      ∃ w rest, HostTurn s (.wr 5 w) rest ∧ w.getLsbD 0 = true ∧ t.err = true ∧ t.ecode = .aborted := by
  cases step_effect h with
  | host t hturn he =>
    obtain ⟨w, rest, hscript, hbit, herr, hcode⟩ := he.busy_falls hs ht
    exact .inr (.inr ⟨w, rest, ⟨hturn, hscript⟩, hbit, herr, hcode⟩)
  | seq k l i t hturn =>
    rw [step_of_seq hturn] at h
    exact .inr (.inl ⟨⟨k, l, hturn⟩, seqMove_endStatus h hs ht⟩)
  | lane n l i t hd he =>
    rcases he.busy_falls hs ht with hr | ⟨⟨c, rfl⟩, -⟩
    · obtain ⟨p, hp⟩ := profileOf_of_running hr
      cases (profileOf_of_ph hd).symm.trans hp
    · obtain ⟨-, -, habort⟩ := not_tableCommand_of_ph hd
      exact absurd rfl (habort c)
  | passed c => cases hs.symm.trans ht
  | ent =>
    rw [entStep_busy] at ht
    cases hs.symm.trans ht
  | reset hturn => exact .inl ⟨hturn, statusWord_resetEvent _⟩

end

/-- Settles O57, by cases over what a step can do. -/
theorem commandsBeginAndEndOnlyAsStated : Obligations.CommandsBeginAndEndOnlyAsStated :=
  fun _ _ h => ⟨(step_effect h).busy_rises, step_busy_falls h⟩

end Sys2Proof.Machine
end

section
/-! PROOFS. A cipher command under the order of turns that the model takes when the schedule holds none (log 1): each
step takes one off a count of steps, and at the end of the count the command completes. From that and from schedule
independence (R204), what the scripts of ENCB and DECB do (R102, R182, R183). -/

namespace Sys2Proof.Machine

/-! ### The count -/

/-- The steps a lane has still to take when it stands at stage `st` of round `n`, UNPACK included (R186). -/
def Stage.stepsLeft (d : Dir) (n : Nat) : Stage → Nat
  | .ltr => 33 - 4 * n
  | .arc =>
    match d with
    | .enc => 32 - 4 * n
    | .dec => 31 - 4 * n
  | .cs =>
    match d with
    | .enc => 31 - 4 * n
    | .dec => 32 - 4 * n
  | .rtl => 30 - 4 * n
  | .unpack => 1

/-- The steps a lane has still to take for its block. -/
def Lane.stepsLeft : Lane → Nat
  | .idle => 0
  | .pack r => 34 - 4 * r.rnd
  | .run st r _ => st.stepsLeft r.dir r.rnd

/-- The steps the lanes have still to take. -/
def laneSteps (s : State) : Nat := (s.lanes.map Lane.stepsLeft).sum

/-- The steps a running cipher command has still to take but for its completion: a dispatch and 34 steps of a lane for
each pending block, and what the lanes have to do. -/
def stepsLeft (s : State) : Nat := 35 * s.pend.length + laneSteps s

section
variable {s u : State} {l l' : Lane}

theorem laneSteps_of_allIdle (h : s.allIdle = true) : laneSteps s = 0 := by
  refine List.sum_eq_zero fun n hn => ?_
  obtain ⟨l, hl, rfl⟩ := List.mem_map.1 hn
  rw [(allIdle_iff s).1 h l hl]
  rfl

/-- Only the lanes and PEND count. -/
theorem stepsLeft_congr (hl : u.lanes = s.lanes) (hp : u.pend = s.pend) : stepsLeft u = stepsLeft s := by
  rw [stepsLeft, stepsLeft, laneSteps, laneSteps, hl, hp]

/-- The lane whose turn it is, and the others. -/
theorem laneSteps_eq (hl : s.selLane = some l) :
    laneSteps s = l.stepsLeft + ((s.lanes.eraseIdx s.sel.lane).map Lane.stepsLeft).sum := by
  obtain ⟨hn, rfl⟩ := List.getElem?_eq_some_iff.1 hl
  exact (((List.getElem_cons_eraseIdx_perm hn).map Lane.stepsLeft).sum_eq).symm

theorem laneSteps_setSelLane (hl : s.selLane = some l) (l' : Lane) :
    laneSteps (s.setSelLane l') = l'.stepsLeft + ((s.lanes.eraseIdx s.sel.lane).map Lane.stepsLeft).sum := by
  obtain ⟨hn, -⟩ := List.getElem?_eq_some_iff.1 hl
  have hl' : (s.setSelLane l').selLane = some l' := by
    show (s.lanes.set s.sel.lane l')[s.sel.lane]? = some l'
    rw [List.getElem?_set_self hn]
  rw [laneSteps_eq hl']
  show _ + (((s.lanes.set s.sel.lane l').eraseIdx s.sel.lane).map Lane.stepsLeft).sum = _
  rw [List.eraseIdx_set_eq]

/-- Each stage is one step (R186). -/
theorem computed_stepsLeft (t : Table) (r : LaneRegs) (rows : Rows) {st : Stage} (hst : st ≠ .unpack) :
    (computed t r rows st).stepsLeft + 1 = (Lane.run st r rows).stepsLeft := by
  obtain ⟨d, k, n⟩ := r
  have hn := n.isLt
  cases st with
  | unpack => exact absurd rfl hst
  | rtl =>
    simp only [computed, afterRtl]
    split <;> simp only [Lane.stepsLeft, Stage.stepsLeft] <;> omega
  | ltr | arc | cs =>
    cases d <;> simp only [computed, Lane.stepsLeft, afterLtr, afterArc, afterCs, Stage.stepsLeft] <;> omega

theorem stepsLeft_setSelLane (hl : s.selLane = some l) (h : l'.stepsLeft + 1 = l.stepsLeft) :
    stepsLeft (s.setSelLane l') + 1 = stepsLeft s := by
  rw [stepsLeft, stepsLeft, laneSteps_setSelLane hl, laneSteps_eq hl, setSelLane_pend]
  omega

/-! ### One step of the count -/

/-- `u` is one step further in the running command than `s`, and the environment's lists are the same. -/
structure Advances (s u : State) : Prop where
  busy : u.busy = s.busy
  running : u.running = s.running
  sched : u.sched = s.sched
  script : u.script = s.script
  replies : u.replies = s.replies
  count : stepsLeft u + 1 = stepsLeft s

/-- In `u` the command that runs in `s` has completed, and the environment's lists are the same. -/
structure Completes (s u : State) : Prop where
  busy : u.busy = false
  done : u.done = true
  sched : u.sched = s.sched
  script : u.script = s.script
  replies : u.replies = s.replies

theorem setSelLane_advances (hl : s.selLane = some l) (h : l'.stepsLeft + 1 = l.stepsLeft) :
    Advances s (s.setSelLane l') :=
  ⟨rfl, rfl, rfl, rfl, rfl, stepsLeft_setSelLane hl h⟩

/-- What the engine writes to MEM is no part of the count. -/
theorem Advances.of_engineWrite {a : Nat} {bytes : List Byte} (h : Advances (engineWrite a bytes s) u) :
    Advances s u :=
  ⟨h.busy, h.running, h.sched, h.script, h.replies, h.count⟩

/-- The free values that the engine draws are no part of the count. -/
theorem Advances.of_engineRead {n : Nat} (h : Advances (afterEngineRead n s) u) : Advances s u :=
  ⟨h.busy, h.running, h.sched, h.script, h.replies, h.count⟩

/-- Whose turn it is, is no part of the count. -/
theorem Advances.of_sel {c : Selection} (h : Advances { s with sel := c } u) : Advances s u :=
  ⟨h.busy, h.running, h.sched, h.script, h.replies, h.count⟩

/-- An active lane's turn advances its block (R186). -/
theorem laneMove_advances (h : Inv s) (hl : s.selLane = some l) (ha : l.active = true) :
    ∃ u, (laneMove s).outcome = .next u ∧ Advances s u := by
  cases l with
  | idle => cases ha
  | pack r =>
    have hstage (rows : Rows) : (Lane.run .ltr r rows).stepsLeft + 1 = (Lane.pack r).stepsLeft := by
      have := r.rnd.isLt
      simp only [Lane.stepsLeft, Stage.stepsLeft]
      omega
    exact ⟨_, laneMove_of_pack hl (h.lane_holds hl rfl).1,
      .of_engineRead (setSelLane_advances ((afterEngineRead_selLane s 16).trans hl) (hstage _))⟩
  | run st r rows =>
    by_cases hst : st = .unpack
    · subst hst
      exact ⟨_, laneMove_of_unpack hl (h.lane_holds hl rfl).2,
        .of_engineWrite (setSelLane_advances ((engineWrite_selLane s _ _).trans hl) rfl)⟩
    · exact ⟨_, laneMove_of_compute hl hst, setSelLane_advances hl (computed_stepsLeft _ r rows hst)⟩

/-- A dispatch advances by one: a block costs 35 steps in PEND and 34 in a lane (R202). -/
theorem dispatch_advances (d : Dir) (hk : s.sel.blk ∈ s.pend) (hl : s.selLane = some .idle) :
    Advances s (dispatch d s) := by
  have e : dispatch d s = { s with pend := s.pend.erase s.sel.blk }.setSelLane (activate d s.sel.blk) :=
    if_pos ⟨hk, hl⟩
  have hlanes : laneSteps (s.setSelLane (activate d s.sel.blk)) = 34 + laneSteps s := by
    rw [laneSteps_setSelLane hl, laneSteps_eq hl]
    simp [activate, Lane.stepsLeft]
  have hlen := List.length_erase_add_one hk
  rw [e]
  refine ⟨rfl, rfl, rfl, rfl, rfl, ?_⟩
  show 35 * (s.pend.erase s.sel.blk).length + laneSteps (s.setSelLane (activate d s.sel.blk)) + 1 =
    35 * s.pend.length + laneSteps s
  omega

end

/-! ### The model's own order of turns (log 1) -/

/-- The cipher command `i` runs and the schedule holds no turn. -/
structure Working (i : Instr) (d : Dir) (s : State) : Prop where
  inv : Inv s
  busy : s.busy = true
  running : s.running = some i
  dir : dirOf? i = some d
  sched : s.sched = []

section
variable {i : Instr} {d : Dir} {s u : State}

theorem exists_of_findIdx {p : Lane → Bool} {ls : List Lane} (h : ∃ l ∈ ls, p l = true) :
    ∃ l, ls[ls.findIdx p]? = some l ∧ p l = true := by
  have hlt := List.findIdx_lt_length_of_exists h
  exact ⟨_, List.getElem?_eq_getElem hlt, List.findIdx_getElem⟩

/-- While a lane is active the first such lane moves. -/
theorem Working.turn_of_active (h : Working i d s) (ha : s.allIdle = false) :
    ∃ n l, s.turn = .lane n ∧ s.lanes[n]? = some l ∧ l.active = true := by
  have hex : ∃ l ∈ s.lanes, l.active = true := by simpa [State.allIdle] using ha
  obtain ⟨l, hl, hact⟩ := exists_of_findIdx hex
  exact ⟨_, l, by simp [State.turn, h.sched, State.defaultTurn, h.busy, ha], hl, hact⟩

/-- While all lanes are idle SEQ moves, with the first pending block and an idle lane. -/
theorem Working.turn_of_allIdle (h : Working i d s) (ha : s.allIdle = true) :
    ∃ n, s.turn = .seq (s.pend.headD 0) n ∧ s.lanes[n]? = some .idle := by
  have hgen : i ≠ .genlut := by
    rintro rfl
    cases h.dir
  obtain ⟨l, hl⟩ := List.exists_mem_of_length_pos h.inv.params.1
  have hidle := (allIdle_iff s).1 ha
  obtain ⟨l', hl', -⟩ := exists_of_findIdx (p := fun l => !l.active) ⟨l, hl, by rw [hidle l hl]; rfl⟩
  rw [hidle l' (List.mem_of_getElem? hl')] at hl'
  exact ⟨_, by simp [State.turn, h.sched, State.defaultTurn, h.busy, ha, h.running, hgen, State.firstIdle], hl'⟩

theorem Working.next (h : Working i d s) (hs : step s = .next u) (ha : Advances s u) : Working i d u :=
  ⟨everyStepKeepsInvariant s u h.inv hs, ha.busy.trans h.busy, ha.running.trans h.running, h.dir,
    ha.sched.trans h.sched⟩

/-- Taking the turn changes nothing while the schedule holds none. -/
theorem popTurn_of_noTurns (h : s.sched = []) : s.popTurn = s := by
  rw [State.popTurn, h, List.tail_nil, ← h]

/-- SEQ's turn while all lanes are idle: a dispatch, or the completion when no block is pending (R202, R203). -/
theorem cipherWork_advances (i : Instr) (d : Dir) (ha : s.allIdle = true) (hblk : s.sel.blk = s.pend.headD 0)
    (hl : s.selLane = some .idle) :
    ∃ u, cipherWork i d s = .next u ∧ (Advances s u ∨ stepsLeft s = 0 ∧ Completes s u) := by
  cases hp : s.pend with
  | nil =>
    refine ⟨_, cipherWork_of_done i d hp ha, .inr ⟨?_, rfl, rfl, rfl, rfl, rfl⟩⟩
    rw [stepsLeft, hp, laneSteps_of_allIdle ha]
    rfl
  | cons k ks =>
    have hk : s.sel.blk ∈ s.pend := by simp [hblk, hp]
    exact ⟨_, if_pos (by simp [hp]), .inl (dispatch_advances d hk hl)⟩

theorem seqMove_of_running (hb : s.busy = true) (hr : s.running = some i) : seqMove s = .run i s := by
  unfold State.running at hr
  cases hd : decode (.cmdw s.cmd) with
  | ok j =>
    obtain rfl : j = i := by simpa [hd] using hr
    simp [seqMove, hb, hd]
  | error e => simp [hd] at hr

/-- A step advances the command, or completes it when the count is at its end. -/
theorem Working.step (h : Working i d s) :
    ∃ u, step s = .next u ∧ (Advances s u ∨ stepsLeft s = 0 ∧ Completes s u) := by
  have hpop := popTurn_of_noTurns h.sched
  cases ha : s.allIdle with
  | false =>
    obtain ⟨n, l, ht, hl, hact⟩ := h.turn_of_active ha
    have hinv : Inv { s with sel := ⟨s.sel.blk, n⟩ } := h.inv.withEnv _ _ _ _ _ _ _ _
    obtain ⟨u, hu, hadv⟩ := laneMove_advances hinv hl hact
    rw [step_of_lane ht, hpop]
    exact ⟨u, hu, .inl hadv.of_sel⟩
  | true =>
    obtain ⟨n, ht, hl⟩ := h.turn_of_allIdle ha
    have hwork : exec i { s with sel := ⟨s.pend.headD 0, n⟩ } = _ := exec_of_runningCipher h.dir h.busy h.running
    obtain ⟨u, hu, hend⟩ := cipherWork_advances (s := { s with sel := ⟨s.pend.headD 0, n⟩ }) i d ha rfl hl
    refine ⟨u, ?_, hend.imp .of_sel fun ⟨hcount, hc⟩ => ⟨hcount, hc.busy, hc.done, hc.sched, hc.script, hc.replies⟩⟩
    have hmove := seqMove_of_running (s := { s with sel := ⟨s.pend.headD 0, n⟩ }) h.busy h.running
    rw [step_of_seq ht, hpop, hmove]
    exact hwork.trans hu

/-! ### To the end of the command -/

theorem run_succ_of_step {n : Nat} (hs : Machine.step s = .next u) : core.run (n + 1) s = core.run n u := by
  have hs' : core.step s = .next u := hs
  simp only [Host.Core.run, hs']

/-- `m + n` steps are `m` steps and then `n`. -/
theorem run_add {m : Nat} (n : Nat) (h : core.run m s = .next u) : core.run (m + n) s = core.run n u := by
  induction m generalizing s with
  | zero =>
    cases h
    rw [Nat.zero_add]
  | succ m ih =>
    obtain ⟨v, hs, hrest⟩ := step_of_run_succ h
    rw [Nat.add_right_comm, run_succ_of_step hs]
    exact ih hrest

/-- A running cipher command completes at the end of the count (R203). -/
theorem Working.run_completes (h : Working i d s) :
    ∃ u, core.run (stepsLeft s + 1) s = .next u ∧ Completes s u := by
  generalize hn : stepsLeft s = n
  induction n generalizing s with
  | zero =>
    obtain ⟨u, hs, hadv | ⟨-, hend⟩⟩ := h.step
    · exact absurd hadv.count (by omega)
    · exact ⟨u, run_succ_of_step hs, hend⟩
  | succ n ih =>
    obtain ⟨v, hs, hadv | ⟨hcount, -⟩⟩ := h.step
    · obtain ⟨u, hrun, hend⟩ := ih (h.next hs hadv) (by have := hadv.count; omega)
      exact ⟨u, (run_succ_of_step hs).trans hrun, hend.busy, hend.done, hend.sched.trans hadv.sched,
        hend.script.trans hadv.script, hend.replies.trans hadv.replies⟩
    · omega

/-- From its acceptance a cipher command takes 35 steps a block and one to complete. -/
theorem JustAccepted.run_completes (h : JustAccepted i d s) (hsched : s.sched = []) :
    ∃ u, core.run (35 * blockCount i s.len + 1) s = .next u ∧ Completes s u := by
  have hcount : stepsLeft s = 35 * blockCount i s.len := by
    rw [stepsLeft, h.pend, List.length_range, laneSteps_of_allIdle h.idle, Nat.add_zero]
  exact hcount ▸ Working.run_completes ⟨h.inv, h.busy, h.running, h.dir, hsched⟩

end

/-! ### The scripts of ENCB and DECB (R102) -/

section
variable {s u : State} {a d : Word} {i : Instr} {dir : Dir} {n : TableNeed}

/-- With no turn on the schedule the HOST moves while BUSY = 0. -/
theorem turn_of_idle (hb : s.busy = false) (hsched : s.sched = []) : s.turn = .host := by
  simp [State.turn, hsched, State.defaultTurn, hb]

theorem afterTxn_of_noTurns (h : s.sched = []) (rest : List HostTxn) : s.afterTxn rest = { s with script := rest } := by
  rw [State.afterTxn, h, List.tail_nil, ← h]

/-- With no turn on the schedule an operand write while BUSY = 0 is the next step. -/
theorem step_of_nextOperandWrite {k : Nat} {w : Word} {rest : List HostTxn} (hb : s.busy = false)
    (hsched : s.sched = []) (hscript : s.script = .wr k w :: rest) (h0 : k ≠ 0) (h5 : k ≠ 5) :
    step s = .next (operandWrite k w { s with script := rest }) := by
  rw [step_of_idleWrite ⟨turn_of_idle hb hsched, hscript⟩ hb h0 h5, afterTxn_of_noTurns hsched]

/-- `s` when the HOST has written SRC and DST and has `rest` still to do. -/
def State.withOperands (s : State) (a d : Word) (rest : List HostTxn) : State :=
  { s with src := a, dst := d, script := rest }

/-- Two operand writes and the command word come to the command's issue. -/
theorem run_operandsAndIssue {w : Word} {rest : List HostTxn} (hb : s.busy = false) (hsched : s.sched = [])
    (hscript : s.script = .wr 2 a :: .wr 3 d :: .wr 0 w :: rest) (hd : decode (.cmdw w) = .ok i)
    (hissue : exec i (s.withOperands a d rest) = .next u) : core.run 3 s = .next u := by
  have hsrc : step s = .next (s.withOperands a s.dst (.wr 3 d :: .wr 0 w :: rest)) :=
    step_of_nextOperandWrite hb hsched hscript (by decide) (by decide)
  have hdst : step (s.withOperands a s.dst (.wr 3 d :: .wr 0 w :: rest)) =
      .next (s.withOperands a d (.wr 0 w :: rest)) :=
    step_of_nextOperandWrite (s := s.withOperands a s.dst _) hb hsched rfl (by decide) (by decide)
  have hcmd : step (s.withOperands a d (.wr 0 w :: rest)) = .next u := by
    have hturn : (s.withOperands a d (.wr 0 w :: rest)).turn = .host := turn_of_idle hb hsched
    have hafter : (s.withOperands a d (.wr 0 w :: rest)).afterTxn rest = s.withOperands a d rest :=
      afterTxn_of_noTurns (s := s.withOperands a d _) hsched rest
    rw [step_of_commandWrite ⟨hturn, rfl⟩ hb hd, hafter, hissue]
  rw [run_succ_of_step hsrc, run_succ_of_step hdst, run_succ_of_step hcmd]
  rfl

/-- A block command passes its checks when its table is valid and its regions lie right (R69, R70, R245). -/
theorem issue_of_goodBlock (hp : profileOf i = some ⟨.bytes 16, .bytes 16, n⟩) (hkey : n.met s.keyFlags = true)
    (hsrc : s.src.toNat + 16 ≤ s.memBytes) (hdst : s.dst.toNat + 16 ≤ s.memBytes)
    (halias : aliasLegal s.src s.dst 16) : issue i s = accept i s := by
  have hoverlap : ¬ (s.src ≠ s.dst ∧ s.src.toNat < s.dst.toNat + 16 ∧ s.dst.toNat < s.src.toNat + 16) := by
    rintro ⟨hne, hlt, hlt'⟩
    rcases halias with heq | hle | hle
    · exact hne heq.symm
    · omega
    · omega
  rw [issue_of_block hp, if_neg (by simp [hkey]), if_neg (by omega), if_neg hoverlap]

theorem justAccepted_accept {p : Profile} (hinv : Inv (accept i s)) (hq : Quiescent s) (hp : profileOf i = some p)
    (hd : dirOf? i = some dir) : JustAccepted i dir (accept i s) := by
  obtain ⟨hidle, -, -, hcalm⟩ := hq
  exact ⟨hinv, rfl, accept_running i p s hp, hd, hidle, rfl, hcalm⟩

/-- The net effect on one block. -/
theorem netEffect_one (f : Block → Block) (m : Memory) (src dst : Word) :
    netEffect f m src dst 1 = m.writeBytes dst.toNat (f (m.readBytes src.toNat 16)).toList := by
  simp [netEffect, blockAddr]

/-- A block command on which the HOST only polls leaves the block function's result in MEM, and nothing else (R204). -/
theorem JustAccepted.mem_of_run {t : State} {k : Nat} (h : JustAccepted i dir s) (hsched : s.sched = [])
    (hscript : s.script = [.wait]) (hcount : blockCount i s.len = 1) (hrun : core.run k s = .next t)
    (hb : t.busy = false) :
    t.mem = s.mem.writeBytes s.dst.toNat (blockFn dir (s.tableOf dir) (s.mem.readBytes s.src.toNat 16)).toList := by
  have hquiet : ∀ x ∈ s.script, quietTxn s.src s.dst (16 * blockCount i s.len) x = true := by simp [hscript, quietTxn]
  have hreset : NoReset s := by simp [NoReset, hsched]
  obtain ⟨hwf, hread, -⟩ := everyScheduleGivesTheNetEffect s t i dir k h hquiet hreset hrun hb
  rw [hcount, netEffect_one] at hread
  refine memory_ext hwf (memory_writeBytes_wf _ _ _ h.inv.memory.1) fun x => (hread x).resolve_right ?_
  simp [hscript]

/-- The script of a block command: its issue, its 36 steps and the poll. -/
theorem blockScript_runs (hinv : Inv s) (hb : s.busy = false) (hsched : s.sched = [])
    (hp : profileOf i = some ⟨.bytes 16, .bytes 16, n⟩) (hdir : dirOf? i = some dir) (hkey : n.met s.keyFlags = true)
    (hscript : s.script = [.wr 2 a, .wr 3 d, .wr 0 (cmdWord i), .wait]) (ha : a.toNat + 16 ≤ s.memBytes)
    (hd : d.toNat + 16 ≤ s.memBytes) (halias : aliasLegal a d 16) :
    ∃ t : State, core.run 40 s = .next t ∧ t.busy = false ∧ t.done = true ∧ t.script = [] ∧
      t.mem = s.mem.writeBytes d.toNat (blockFn dir (s.tableOf dir) (s.mem.readBytes a.toNat 16)).toList ∧
      t.replies = .word (statusWord t) :: s.replies := by
  have hissue : exec i (s.withOperands a d [.wait]) = .next (accept i (s.withOperands a d [.wait])) :=
    (exec_of_cipher hdir _).trans ((command_of_idle (s := s.withOperands a d [.wait]) i _ hb).trans
      (congrArg _ (issue_of_goodBlock (s := s.withOperands a d [.wait]) hp hkey ha hd halias)))
  have hrun3 : core.run 3 s = .next (accept i (s.withOperands a d [.wait])) :=
    run_operandsAndIssue hb hsched hscript (decode_cmdWord i _ hp) hissue
  have hacc : JustAccepted i dir (accept i (s.withOperands a d [.wait])) :=
    justAccepted_accept (run_keeps everyStepKeepsInvariant 3 hinv hrun3) (hinv.busy.1 hb) hp hdir
  have hcount (len : Word) : blockCount i len = 1 := by cases i <;> cases hp <;> rfl
  obtain ⟨u, hrun36, hend⟩ := hacc.run_completes hsched
  rw [hcount] at hrun36
  have hmem := hacc.mem_of_run hsched rfl (hcount _) hrun36 hend.busy
  have hpoll : step u = .next (reply (.word (statusWord u)) (u.afterTxn [])) := by
    have hturn : u.turn = .host := turn_of_idle hend.busy (hend.sched.trans hsched)
    rw [step_of_wait ⟨hturn, hend.script⟩, if_neg (by simp [hend.busy])]
  refine ⟨reply (.word (statusWord u)) (u.afterTxn []), ?_, hend.busy, hend.done, rfl, hmem.trans ?_,
    congrArg (List.cons _) hend.replies⟩
  · rw [run_add 37 hrun3, run_add 1 hrun36, run_succ_of_step hpoll]
    rfl
  · rw [accept_tableOf]
    rfl

end

/-- Settles O54, by the script of a block command, for ENCB with LUT and for DECB with INV. -/
theorem blockScriptsTransformOneBlock : Obligations.BlockScriptsTransformOneBlock := by
  rintro s a d p dir hinv hb hsched (⟨rfl, rfl, hkey⟩ | ⟨rfl, rfl, hkey⟩) hscript ha hd halias
  · exact blockScript_runs (i := .encb) (n := .lut) hinv hb hsched rfl rfl hkey hscript ha hd halias
  · exact blockScript_runs (i := .decb) (n := .inv) hinv hb hsched rfl rfl hkey hscript ha hd halias

end Sys2Proof.Machine
end

section
/-! PROOFS. The Fisher–Yates shuffle as a map from draw sequences to permutations (R122, R123, R125, R132). -/

namespace Sys2Proof.Machine

/-! ### One iteration -/

theorem swapEntries_eq_swap (t : Table) (a b : Byte) :
    swapEntries t a b = t.swap a.toNat b.toNat a.isLt b.isLt := rfl

theorem swapEntries_isPermutation {t : Table} (h : IsPermutation t) (a b : Byte) :
    IsPermutation (swapEntries t a b) := by
  intro v
  rw [swapEntries_eq_swap, (Vector.swap_perm a.isLt b.isLt).toList.count_eq v, h v]

theorem identityTable_isPermutation : IsPermutation identityTable := by
  intro v
  have hinj : Function.Injective fun k : Fin 256 => BitVec.ofNat 8 k.val := by
    intro a b e
    have hval : a.val % 2 ^ 8 = b.val % 2 ^ 8 := congrArg BitVec.toNat e
    omega
  unfold identityTable
  rw [Vector.toList_ofFn]
  exact List.count_eq_one_of_mem (List.nodup_ofFn.2 hinj) ((List.mem_ofFn' _ v).2 ⟨v.toFin, by simp⟩)

theorem shuffleSteps_succ (j : DrawSeq) {n : Nat} (hn : n < 255) :
    shuffleSteps j (n + 1) = (shuffleSteps j n).swap n j[n].toNat (by omega) j[n].isLt := by
  have hindex : (BitVec.ofNat 8 n).toNat = n := Nat.mod_eq_of_lt (by omega)
  simp only [shuffleSteps, dif_pos hn, swapEntries_eq_swap, hindex]

/-- Every iteration permutes the table. -/
theorem shuffleSteps_isPermutation (j : DrawSeq) : ∀ n, IsPermutation (shuffleSteps j n)
  | 0 => identityTable_isPermutation
  | n + 1 => by
    rw [shuffleSteps]
    split
    · exact swapEntries_isPermutation (shuffleSteps_isPermutation j n) _ _
    · exact shuffleSteps_isPermutation j n

theorem fisherYates_eq (j : DrawSeq) : fisherYates j = shuffleSteps j 255 := by
  unfold fisherYates
  rfl

/-- Settles O24: the shuffle starts from a permutation, and a swap keeps it one. -/
theorem shuffleGivesAPermutation : Obligations.ShuffleGivesAPermutation := by
  intro j
  rw [fisherYates_eq]
  exact shuffleSteps_isPermutation j 255

/-! ### A legal iteration `i` fixes entry `i` for good -/

theorem drawsLegal_iff (j : DrawSeq) : drawsLegal j = true ↔ ∀ n, (hn : n < 255) → n ≤ j[n].toNat := by
  simp [drawsLegal, Fin.forall_iff]

section
variable {j k : DrawSeq} {n : Nat}

theorem drawsLegal_set (hj : drawsLegal j = true) (hn : n < 255) {b : Byte} (hb : n ≤ b.toNat) :
    drawsLegal (j.set n b) = true := by
  refine (drawsLegal_iff _).2 fun i hi => ?_
  rw [Vector.getElem_set]
  split
  · next e => exact e ▸ hb
  · exact (drawsLegal_iff j).1 hj i hi

/-- The first `n` iterations read the first `n` draws only. -/
theorem shuffleSteps_congr (hn : n ≤ 255) (h : ∀ i, (hi : i < n) → j[i] = k[i]) :
    shuffleSteps j n = shuffleSteps k n := by
  induction n with
  | zero => rfl
  | succ n ih =>
    simp only [shuffleSteps_succ _ hn, ih (by omega) fun i hi => h i (by omega), h n n.lt_succ_self]

theorem shuffleSteps_set (j : DrawSeq) (hn : n < 255) (b : Byte) :
    shuffleSteps (j.set n b) n = shuffleSteps j n :=
  shuffleSteps_congr hn.le fun i hi => Vector.getElem_set_ne hn (by omega) (by omega)

/-- Iteration `n` puts into entry `n` what the draw points at. -/
theorem shuffleSteps_succ_get_self (j : DrawSeq) (hn : n < 255) :
    (shuffleSteps j (n + 1))[n] = look (shuffleSteps j n) j[n] := by
  simp only [shuffleSteps_succ j hn, Vector.getElem_swap_left, look]

/-- A legal iteration leaves the entries below its index alone. -/
theorem shuffleSteps_succ_get_of_lt (hj : drawsLegal j = true) (hn : n < 255) {i : Nat} (hi : i < n) :
    (shuffleSteps j (n + 1))[i] = (shuffleSteps j n)[i] := by
  have hdraw : n ≤ j[n].toNat := (drawsLegal_iff j).1 hj n hn
  simp only [shuffleSteps_succ j hn]
  exact Vector.getElem_swap_of_ne (by omega) (by omega)

/-- What the first `n` legal iterations put below index `n` stands there at the end. -/
theorem fisherYates_get_of_lt (hj : drawsLegal j = true) {i : Nat} (hi : i < n) (hn : n ≤ 255) :
    (fisherYates j)[i] = (shuffleSteps j n)[i] := by
  rw [fisherYates_eq]
  induction hn using Nat.decreasingInduction with
  | self => rfl
  | of_succ m hm ih => rw [ih (by omega), shuffleSteps_succ_get_of_lt hj hm hi]

/-- Entry `n` of the result is the one that draw `n` points at. -/
theorem fisherYates_get (hj : drawsLegal j = true) (hn : n < 255) :
    (fisherYates j)[n] = look (shuffleSteps j n) j[n] := by
  rw [fisherYates_get_of_lt hj n.lt_succ_self hn, shuffleSteps_succ_get_self j hn]

end

/-! ### Each permutation has one legal draw sequence -/

theorem IsPermutation.look_injective {t : Table} (h : IsPermutation t) {a b : Byte} (e : look t a = look t b) :
    a = b :=
  BitVec.eq_of_toFin_eq (h.get_injective (a := a.toFin) (b := b.toFin) e)

/-- The table determines its legal draws: the table before iteration `n` is known from the draws below `n`, and holds
entry `n` of the result in one place only. -/
theorem fisherYates_injective {j k : DrawSeq} (hj : drawsLegal j = true) (hk : drawsLegal k = true)
    (h : fisherYates j = fisherYates k) : j = k := by
  refine Vector.ext fun n hn => ?_
  induction n using Nat.strong_induction_on with
  | _ n ih =>
    have hsame : shuffleSteps j n = shuffleSteps k n := shuffleSteps_congr hn.le fun i hi => ih i hi (by omega)
    refine (shuffleSteps_isPermutation j n).look_injective ?_
    calc look (shuffleSteps j n) j[n]
      _ = (fisherYates j)[n] := (fisherYates_get hj hn).symm
      _ = (fisherYates k)[n] := by rw [h]
      _ = look (shuffleSteps j n) k[n] := by rw [fisherYates_get hk hn, hsame]

/-- The first `n` iterations under `j` put the first `n` entries of `t` in their places. -/
def PlacesFirst (j : DrawSeq) (t : Table) (n : Nat) : Prop :=
  ∀ i : Fin 256, i.val < n → (shuffleSteps j n)[i] = t[i]

section
variable {t : Table} {j : DrawSeq} {n : Nat}

/-- Draw `n` can be chosen so that iteration `n` fetches `t[n]`: it does not stand among the entries already placed. -/
theorem PlacesFirst.extend (ht : IsPermutation t) (hj : drawsLegal j = true) (h : PlacesFirst j t n)
    (hn : n < 255) : ∃ k, drawsLegal k = true ∧ PlacesFirst k t (n + 1) := by
  obtain ⟨p, hp⟩ := (shuffleSteps_isPermutation j n).exists_get t[n]
  have hnp : n ≤ p.val := by
    by_contra hlt
    have hsame : t[p] = t[n] := (h p (by omega)).symm.trans hp
    have hpn : p = ⟨n, by omega⟩ := ht.get_injective hsame
    exact hlt (congrArg Fin.val hpn).ge
  have hk : drawsLegal (j.set n (.ofFin p)) = true := drawsLegal_set hj hn hnp
  refine ⟨j.set n (.ofFin p), hk, fun i hi => ?_⟩
  rcases Nat.lt_succ_iff_lt_or_eq.1 hi with hlt | heq
  · calc (shuffleSteps (j.set n (.ofFin p)) (n + 1))[i]
      _ = (shuffleSteps (j.set n (.ofFin p)) n)[i] := shuffleSteps_succ_get_of_lt hk hn hlt
      _ = (shuffleSteps j n)[i] := by rw [shuffleSteps_set]
      _ = t[i] := h i hlt
  · subst heq
    calc (shuffleSteps (j.set i.val (.ofFin p)) (i.val + 1))[i]
      _ = look (shuffleSteps j i.val) (.ofFin p) := by
        rw [Fin.getElem_fin, shuffleSteps_succ_get_self _ hn, shuffleSteps_set, Vector.getElem_set_self]
      _ = t[i] := hp

theorem exists_placesFirst (ht : IsPermutation t) (n : Nat) (hn : n ≤ 255) :
    ∃ j, drawsLegal j = true ∧ PlacesFirst j t n := by
  induction n with
  | zero => exact ⟨Vector.replicate 255 255, by simp [drawsLegal], fun i hi => absurd hi (Nat.not_lt_zero _)⟩
  | succ n ih =>
    obtain ⟨j, hj, hplaced⟩ := ih (by omega)
    exact hplaced.extend ht hj hn

/-- Two permutations that agree on all entries but the last are equal. -/
theorem IsPermutation.eq_of_get_lt {u : Table} (hu : IsPermutation u) (ht : IsPermutation t)
    (h : ∀ i : Fin 256, i.val < 255 → u[i] = t[i]) : u = t := by
  have hlast : u[Fin.last 255] = t[Fin.last 255] := by
    obtain ⟨q, hq⟩ := hu.exists_get t[Fin.last 255]
    rcases Fin.lt_or_eq_of_le (Fin.le_last q) with hlt | rfl
    · exact absurd (ht.get_injective ((h q hlt).symm.trans hq)) hlt.ne
    · exact hq
  refine Vector.ext fun i hi => ?_
  rcases Nat.lt_succ_iff_lt_or_eq.1 hi with hlt | rfl
  · exact h ⟨i, hi⟩ hlt
  · exact hlast

end

/-- Settles O25: the draws are found one by one, and the table determines each. -/
theorem shuffleReachesEveryPermutationOnce : Obligations.ShuffleReachesEveryPermutationOnce := by
  intro t ht
  obtain ⟨j, hj, hplaced⟩ := exists_placesFirst ht 255 le_rfl
  have hjt : fisherYates j = t := by
    rw [fisherYates_eq]
    exact (shuffleSteps_isPermutation j 255).eq_of_get_lt ht hplaced
  refine ⟨⟨j, hj⟩, hjt, fun ⟨k, hk⟩ hkt => ?_⟩
  obtain rfl : k = j := fisherYates_injective hk hj (hkt.trans hjt.symm)
  rfl

end Sys2Proof.Machine
end

section
/-! PROOFS. The commands that store a table to MEM (R69, R130, R131, R252). -/

namespace Sys2Proof.Machine

/-! ### The issue checks (R252) -/

/-- A command that stores a table is checked for that table, then for its destination (R69). -/
theorem issue_of_store {i : Instr} {n : TableNeed} (s : State)
    (hp : profileOf i = some ⟨.unused, .bytes 256, n⟩) :
    issue i s =
      if n.met s.keyFlags = false then reject .notKeyed s
      else if s.memBytes < s.dst.toNat + 256 then reject .badAddress s
      else accept i s := by
  have hlen : ¬ lengthBad ⟨.unused, .bytes 256, n⟩ s := fun ⟨hbulk, _⟩ => nomatch hbulk
  have hoverlap : ¬ aliasBad ⟨.unused, .bytes 256, n⟩ s := fun ⟨hsrc, _⟩ => absurd hsrc (Nat.lt_irrefl 0)
  have haddr : addressBad ⟨.unused, .bytes 256, n⟩ s ↔ s.memBytes < s.dst.toNat + 256 := by
    simp [Extent.size, regionInMem]
  simp only [issue_of_checks hp, if_neg hlen, if_neg hoverlap, keyMissing, haddr]

/-! ### The store -/

section
variable {s : State}

theorem storeTable_read (t : Table) (hwf : s.mem.wf = true) (i : Fin 256) :
    (storeTable t s).mem.read (s.dst.toNat + i.val) = t[i] := by
  rw [storeTable_mem, memory_read_writeBytes _ _ _ _ hwf, if_pos (by simp)]
  simp

theorem storeTable_read_outside (t : Table) (hwf : s.mem.wf = true) {a : Nat} (ha : ¬ inRegion a s.dst.toNat 256) :
    (storeTable t s).mem.read a = s.mem.read a := by
  rw [storeTable_mem, memory_read_writeBytes _ _ _ _ hwf, Vector.length_toList, if_neg ha]

end

/-- Settles O29, by the issue check and the SEQ step of RDLUT. -/
theorem rdlutStoresLutToMemory : Obligations.RdlutStoresLutToMemory := by
  refine fun s => ⟨fun hb => ?_, fun hb hr hm hwf => ?_⟩
  · exact (command_of_idle .rdlut rdlutWork hb).trans (congrArg _ (issue_of_store (n := .lut) s rfl))
  · refine ⟨(storeTable s.lut s).mem, storeTable_read s.lut hwf, fun a => storeTable_read_outside s.lut hwf, ?_⟩
    refine (command_of_running rdlutWork hb hr).trans ?_
    rw [rdlutWork, if_pos hm]
    rfl

/-- Settles O30, by the issue check and the SEQ step of RDINV. -/
theorem rdinvStoresInvToMemory : Obligations.RdinvStoresInvToMemory := by
  refine fun s => ⟨fun hb => ?_, fun hb hr hm hwf => ?_⟩
  · exact (command_of_idle .rdinv rdinvWork hb).trans (congrArg _ (issue_of_store (n := .inv) s rfl))
  · refine ⟨(storeTable s.inv s).mem, storeTable_read s.inv hwf, fun a => storeTable_read_outside s.inv hwf, ?_⟩
    refine (command_of_running rdinvWork hb hr).trans ?_
    rw [rdinvWork, if_pos hm]
    rfl

end Sys2Proof.Machine
end

section
/-! PROOFS. LTR and RTL in numbers (R154 to R157), that they undo each other (R162) and that the identity table leaves
them without effect (R164). -/

namespace Sys2Proof.Machine

/-! ### Digits of a byte, two bits each -/

theorem and_three_toNat (b : Byte) : (b &&& 3).toNat = b.toNat % 4 := Nat.and_two_pow_sub_one_eq_mod b.toNat 2

theorem and_top_toNat (b : Byte) : (b &&& 0xC0).toNat = b.toNat / 64 * 64 := by
  have hmask : b &&& (0xC0 : Byte) = (b >>> 6) <<< 6 := by
    ext k hk
    interval_cases k <;> simp
  have := b.isLt
  simp only [hmask, BitVec.toNat_shiftLeft, BitVec.toNat_ushiftRight, Nat.shiftRight_eq_div_pow, Nat.shiftLeft_eq]
  omega

/-- The trailing digits of LTR: those of the low byte from the top. -/
theorem shiftRight_and_three_toNat (b : Byte) (n : Nat) : ((b >>> n) &&& 3).toNat = b.toNat / 2 ^ n % 4 := by
  rw [and_three_toNat, BitVec.toNat_ushiftRight, Nat.shiftRight_eq_div_pow]

/-- The top digit moved down, as in LTR's new high byte. -/
theorem and_top_shiftRight_toNat (b : Byte) (n : Nat) : ((b &&& 0xC0) >>> n).toNat = b.toNat / 64 * 64 / 2 ^ n := by
  rw [BitVec.toNat_ushiftRight, and_top_toNat, Nat.shiftRight_eq_div_pow]

/-- The low digit moved up, as in RTL's new low byte. -/
theorem and_three_shiftLeft_toNat (b : Byte) (n : Nat) : ((b &&& 3) <<< n).toNat = b.toNat % 4 * 2 ^ n % 256 := by
  rw [BitVec.toNat_shiftLeft, and_three_toNat, Nat.shiftLeft_eq]

/-- A digit of the high byte moved to the top, as in RTL's indices. -/
theorem shiftLeft_and_top_toNat (b : Byte) (n : Nat) :
    ((b <<< n) &&& 0xC0).toNat = b.toNat * 2 ^ n % 256 / 64 * 64 := by
  rw [and_top_toNat, BitVec.toNat_shiftLeft, Nat.shiftLeft_eq]

/-- Four digits, each at its own place. -/
theorem or_digits_toNat {p q r s : Byte} {a b c d : Nat} (hp : p.toNat = a * 64) (hq : q.toNat = b * 16)
    (hr : r.toNat = c * 4) (hs : s.toNat = d) (hb : b < 4) (hc : c < 4) (hd : d < 4) :
    (p ||| q ||| r ||| s).toNat = a * 64 + b * 16 + c * 4 + d := by
  simp only [BitVec.toNat_or, hp, hq, hr, hs]
  have hpq : a * 64 ||| b * 16 = 2 ^ 4 * (a * 4 + b) := by
    have := Nat.two_pow_add_eq_or_of_lt (i := 6) (by omega : b * 16 < 2 ^ 6) a
    rw [Nat.mul_comm a, ← this]
    omega
  have hpqr : 2 ^ 4 * (a * 4 + b) ||| c * 4 = 2 ^ 2 * (a * 16 + b * 4 + c) := by
    rw [← Nat.two_pow_add_eq_or_of_lt (by omega : c * 4 < 2 ^ 4)]
    omega
  rw [hpq, hpqr, ← Nat.two_pow_add_eq_or_of_lt (by omega : d < 2 ^ 2)]
  omega

/-- LTR's new high byte: the top digits of the first four results, in their order. -/
theorem newHigh_toNat (t1 t3 t5 t7 : Byte) :
    ((t1 &&& (0xC0 : Byte)) ||| ((t3 &&& 0xC0) >>> 2) ||| ((t5 &&& 0xC0) >>> 4) ||| ((t7 &&& 0xC0) >>> 6)).toNat =
      t1.toNat / 64 * 64 + t3.toNat / 64 * 16 + t5.toNat / 64 * 4 + t7.toNat / 64 :=
  or_digits_toNat (and_top_toNat t1) (by rw [and_top_shiftRight_toNat]; omega)
    (by rw [and_top_shiftRight_toNat]; omega) (by rw [and_top_shiftRight_toNat]; omega)
    (Nat.div_lt_of_lt_mul t3.isLt) (Nat.div_lt_of_lt_mul t5.isLt) (Nat.div_lt_of_lt_mul t7.isLt)

/-- RTL's new low byte: the low digits of the first four results, the last one on top. -/
theorem newLow_toNat (t1 t3 t5 t7 : Byte) :
    (((t7 &&& 3) <<< 6) ||| ((t5 &&& 3) <<< 4) ||| ((t3 &&& 3) <<< 2) ||| (t1 &&& (3 : Byte))).toNat =
      t7.toNat % 4 * 64 + t5.toNat % 4 * 16 + t3.toNat % 4 * 4 + t1.toNat % 4 :=
  or_digits_toNat (by rw [and_three_shiftLeft_toNat]; omega) (by rw [and_three_shiftLeft_toNat]; omega)
    (by rw [and_three_shiftLeft_toNat]; omega) (and_three_toNat t1) (by omega) (by omega) (by omega)

/-- The index of RTL: two bits of the high byte above the top six bits of the last result (R157). -/
theorem rtlIndex_toNat (hk u : Byte) {k : Nat} (h : hk.toNat = k * 64) :
    (rtlIndex hk u).toNat = k * 64 + u.toNat / 4 := by
  have := u.isLt
  rw [rtlIndex, BitVec.toNat_or, BitVec.toNat_ushiftRight, h, Nat.shiftRight_eq_div_pow, Nat.mul_comm k,
    Nat.two_pow_add_eq_or_of_lt (i := 6) (by omega)]

/-! ### Table entries as numbers -/

section
variable {t t' : Table}

theorem entryNat_toNat (t : Table) {n : Nat} (hn : n < 256) : entryNat t n = (look t (BitVec.ofNat 8 n)).toNat := by
  rw [look_toNat, BitVec.toNat_ofNat, Nat.mod_eq_of_lt hn]

theorem entryNat_lt (t : Table) {n : Nat} (hn : n < 256) : entryNat t n < 256 := by
  have := (look t (.ofNat 8 n)).isLt
  rwa [entryNat_toNat t hn]

/-- The inverse table gives back the index of an entry. -/
theorem InverseOf.entryNat_eq (h : InverseOf t' t) {m n : Nat} (hm : m < 256) (e : n = entryNat t m) :
    entryNat t' n = m := by
  rw [e, entryNat_toNat t hm, ← look_toNat, h, BitVec.toNat_ofNat, Nat.mod_eq_of_lt hm]

/-- The inverse of a permutation is undone by it in turn. -/
theorem InverseOf.symm (h : InverseOf t' t) (ht : IsPermutation t) : InverseOf t t' := by
  intro v
  obtain ⟨k, rfl⟩ := ht.exists_get v
  rw [← look_ofNat, h]

theorem look_identityTable (b : Byte) : look identityTable b = b := by
  unfold look identityTable
  rw [Vector.getElem_ofFn, BitVec.ofNat_toNat, BitVec.setWidth_eq]

theorem entryNat_identityTable {n : Nat} (hn : n < 256) : entryNat identityTable n = n := by
  rw [entryNat_toNat _ hn, look_identityTable, BitVec.toNat_ofNat, Nat.mod_eq_of_lt hn]

end

/-! ### The five chained lookups (R154, R156) -/

/-- The results of the five lookups on one row. -/
structure Lookups where
  t1 : Nat
  t3 : Nat
  t5 : Nat
  t7 : Nat
  t9 : Nat

/-- R154 in numbers: the lookups `c` that LTR makes on row `x`, and the row `y` made of them. -/
structure LtrLookups (t : Table) (x y : Nat) (c : Lookups) : Prop where
  t1 : c.t1 = entryNat t (x / 256)
  t3 : c.t3 = entryNat t (c.t1 % 64 * 4 + x % 256 / 64)
  t5 : c.t5 = entryNat t (c.t3 % 64 * 4 + x % 256 / 16 % 4)
  t7 : c.t7 = entryNat t (c.t5 % 64 * 4 + x % 256 / 4 % 4)
  t9 : c.t9 = entryNat t (c.t7 % 64 * 4 + x % 256 % 4)
  row : y = (c.t1 / 64 * 64 + c.t3 / 64 * 16 + c.t5 / 64 * 4 + c.t7 / 64) * 256 + c.t9

/-- R156 in numbers: the lookups `c` that RTL makes on row `x`, and the row `y` made of them. -/
structure RtlLookups (t : Table) (x y : Nat) (c : Lookups) : Prop where
  t1 : c.t1 = entryNat t (x % 256)
  t3 : c.t3 = entryNat t (x / 256 % 4 * 64 + c.t1 / 4)
  t5 : c.t5 = entryNat t (x / 256 / 4 % 4 * 64 + c.t3 / 4)
  t7 : c.t7 = entryNat t (x / 256 / 16 % 4 * 64 + c.t5 / 4)
  t9 : c.t9 = entryNat t (x / 256 / 64 * 64 + c.t7 / 4)
  row : y = c.t9 * 256 + (c.t7 % 4 * 64 + c.t5 % 4 * 16 + c.t3 % 4 * 4 + c.t1 % 4)

section
variable {t : Table}

/-- A link of LTR's chain in numbers. -/
theorem look_ltrIndex (t : Table) (u lk : Byte) {k : Nat} (h : lk.toNat = k) (hk : k < 4) :
    (look t (ltrIndex u lk)).toNat = entryNat t (u.toNat % 64 * 4 + k) := by
  subst h
  rw [look_toNat, ltrIndex_toNat u lk hk]

/-- A link of RTL's chain in numbers. -/
theorem look_rtlIndex (t : Table) (hk u : Byte) {k : Nat} (h : hk.toNat = k * 64) :
    (look t (rtlIndex hk u)).toNat = entryNat t (k * 64 + u.toNat / 4) := by
  rw [look_toNat, rtlIndex_toNat hk u h]

theorem ltrLookups_of_bytes {x : Row} {t1 t3 t5 t7 t9 : Byte} (h1 : t1 = look t (hiByte x))
    (h3 : t3 = look t (ltrIndex t1 (loByte x >>> 6)))
    (h5 : t5 = look t (ltrIndex t3 ((loByte x >>> 4) &&& 3)))
    (h7 : t7 = look t (ltrIndex t5 ((loByte x >>> 2) &&& 3)))
    (h9 : t9 = look t (ltrIndex t7 (loByte x &&& 3))) :
    LtrLookups t x.toNat (rowOf ((t1 &&& (0xC0 : Byte)) ||| ((t3 &&& 0xC0) >>> 2) ||| ((t5 &&& 0xC0) >>> 4) |||
      ((t7 &&& 0xC0) >>> 6)) t9).toNat ⟨t1.toNat, t3.toNat, t5.toNat, t7.toNat, t9.toNat⟩ where
  t1 := by rw [h1, look_toNat, hiByte_toNat]
  t3 := by
    rw [h3]
    exact look_ltrIndex t t1 _ (by rw [BitVec.toNat_ushiftRight, Nat.shiftRight_eq_div_pow, loByte_toNat]) (by omega)
  t5 := by
    rw [h5]
    exact look_ltrIndex t t3 _ (by rw [shiftRight_and_three_toNat, loByte_toNat]; rfl) (by omega)
  t7 := by
    rw [h7]
    exact look_ltrIndex t t5 _ (by rw [shiftRight_and_three_toNat, loByte_toNat]; rfl) (by omega)
  t9 := by
    rw [h9]
    exact look_ltrIndex t t7 _ (by rw [and_three_toNat, loByte_toNat]) (by omega)
  row := by rw [rowOf_toNat, newHigh_toNat, Nat.mul_comm]

theorem rtlLookups_of_bytes {x : Row} {t1 t3 t5 t7 t9 : Byte} (h1 : t1 = look t (loByte x))
    (h3 : t3 = look t (rtlIndex (hiByte x <<< 6) t1))
    (h5 : t5 = look t (rtlIndex ((hiByte x <<< 4) &&& 0xC0) t3))
    (h7 : t7 = look t (rtlIndex ((hiByte x <<< 2) &&& 0xC0) t5))
    (h9 : t9 = look t (rtlIndex (hiByte x &&& 0xC0) t7)) :
    RtlLookups t x.toNat (rowOf t9 (((t7 &&& 3) <<< 6) ||| ((t5 &&& 3) <<< 4) ||| ((t3 &&& 3) <<< 2) |||
      (t1 &&& (3 : Byte)))).toNat ⟨t1.toNat, t3.toNat, t5.toNat, t7.toNat, t9.toNat⟩ where
  t1 := by rw [h1, look_toNat, loByte_toNat]
  t3 := by
    rw [h3]
    refine look_rtlIndex t _ t1 ?_
    rw [BitVec.toNat_shiftLeft, Nat.shiftLeft_eq, hiByte_toNat]
    omega
  t5 := by
    rw [h5]
    exact look_rtlIndex t _ t3 (by rw [shiftLeft_and_top_toNat, hiByte_toNat]; omega)
  t7 := by
    rw [h7]
    exact look_rtlIndex t _ t5 (by rw [shiftLeft_and_top_toNat, hiByte_toNat]; omega)
  t9 := by
    rw [h9]
    exact look_rtlIndex t _ t7 (by rw [and_top_toNat, hiByte_toNat])
  row := by rw [rowOf_toNat, newLow_toNat, Nat.mul_comm]

theorem ltrRow_lookups (t : Table) (x : Row) : ∃ c, LtrLookups t x.toNat (ltrRow t x).toNat c :=
  ⟨_, ltrLookups_of_bytes rfl rfl rfl rfl rfl⟩

theorem rtlRow_lookups (t : Table) (x : Row) : ∃ c, RtlLookups t x.toNat (rtlRow t x).toNat c :=
  ⟨_, rtlLookups_of_bytes rfl rfl rfl rfl rfl⟩

end

/-! ### LTR and RTL undo each other (R162) -/

section
variable {t t' : Table} {x y z : Nat} {c u : Lookups}

/-- LTR's chain with the inverse table retraces RTL's from its last lookup to its first: each result is the index of
the lookup it undoes. -/
theorem LtrLookups.retraces (hl : LtrLookups t' y z u) (hr : RtlLookups t x y c) (h : InverseOf t' t)
    (hx : x < 65536) : z = x := by
  obtain ⟨c1, c3, c5, c7, c9, rfl⟩ := hr
  have hb1 : c.t1 < 256 := c1 ▸ entryNat_lt t (by omega)
  have hb3 : c.t3 < 256 := c3 ▸ entryNat_lt t (by omega)
  have hb5 : c.t5 < 256 := c5 ▸ entryNat_lt t (by omega)
  have hb7 : c.t7 < 256 := c7 ▸ entryNat_lt t (by omega)
  have u1 : u.t1 = x / 256 / 64 * 64 + c.t7 / 4 :=
    hl.t1.trans (h.entryNat_eq (by omega) (.trans (by omega) c9))
  have u3 : u.t3 = x / 256 / 16 % 4 * 64 + c.t5 / 4 :=
    hl.t3.trans (h.entryNat_eq (by omega) (.trans (by omega) c7))
  have u5 : u.t5 = x / 256 / 4 % 4 * 64 + c.t3 / 4 :=
    hl.t5.trans (h.entryNat_eq (by omega) (.trans (by omega) c5))
  have u7 : u.t7 = x / 256 % 4 * 64 + c.t1 / 4 :=
    hl.t7.trans (h.entryNat_eq (by omega) (.trans (by omega) c3))
  have u9 : u.t9 = x % 256 :=
    hl.t9.trans (h.entryNat_eq (by omega) (.trans (by omega) c1))
  rw [hl.row, u1, u3, u5, u7, u9]
  omega

/-- RTL's chain with the inverse table retraces LTR's. -/
theorem RtlLookups.retraces (hr : RtlLookups t' y z u) (hl : LtrLookups t x y c) (h : InverseOf t' t)
    (hx : x < 65536) : z = x := by
  obtain ⟨c1, c3, c5, c7, c9, rfl⟩ := hl
  have hb1 : c.t1 < 256 := c1 ▸ entryNat_lt t (by omega)
  have hb3 : c.t3 < 256 := c3 ▸ entryNat_lt t (by omega)
  have hb5 : c.t5 < 256 := c5 ▸ entryNat_lt t (by omega)
  have hb7 : c.t7 < 256 := c7 ▸ entryNat_lt t (by omega)
  have hb9 : c.t9 < 256 := c9 ▸ entryNat_lt t (by omega)
  have u1 : u.t1 = c.t7 % 64 * 4 + x % 256 % 4 :=
    hr.t1.trans (h.entryNat_eq (by omega) (.trans (by omega) c9))
  have u3 : u.t3 = c.t5 % 64 * 4 + x % 256 / 4 % 4 :=
    hr.t3.trans (h.entryNat_eq (by omega) (.trans (by omega) c7))
  have u5 : u.t5 = c.t3 % 64 * 4 + x % 256 / 16 % 4 :=
    hr.t5.trans (h.entryNat_eq (by omega) (.trans (by omega) c5))
  have u7 : u.t7 = c.t1 % 64 * 4 + x % 256 / 64 :=
    hr.t7.trans (h.entryNat_eq (by omega) (.trans (by omega) c3))
  have u9 : u.t9 = x / 256 :=
    hr.t9.trans (h.entryNat_eq (by omega) (.trans (by omega) c1))
  rw [hr.row, u1, u3, u5, u7, u9]
  omega

theorem ltrRow_rtlRow (h : InverseOf t' t) (x : Row) : ltrRow t' (rtlRow t x) = x := by
  obtain ⟨_, hr⟩ := rtlRow_lookups t x
  obtain ⟨_, hl⟩ := ltrRow_lookups t' (rtlRow t x)
  exact BitVec.eq_of_toNat_eq (hl.retraces hr h x.isLt)

theorem rtlRow_ltrRow (h : InverseOf t' t) (x : Row) : rtlRow t' (ltrRow t x) = x := by
  obtain ⟨_, hl⟩ := ltrRow_lookups t x
  obtain ⟨_, hr⟩ := rtlRow_lookups t' (ltrRow t x)
  exact BitVec.eq_of_toNat_eq (hr.retraces hl h x.isLt)

end

/-- Settles O43: with the inverse table each chain retraces the other. -/
theorem ltrAndRtlUndoEachOther : Obligations.LtrAndRtlUndoEachOther :=
  fun _ _ x _ h => ⟨ltrRow_rtlRow h x, rtlRow_ltrRow h x⟩

/-! ### The identity table (R164) -/

section
variable {x y : Nat} {c : Lookups}

/-- With the identity table each result of LTR is its index: the row moved left by two bits at a time. -/
theorem LtrLookups.row_of_identity (h : LtrLookups identityTable x y c) (hx : x < 65536) : y = x := by
  have t1 : c.t1 = x / 256 := h.t1.trans (entryNat_identityTable (by omega))
  have t3 : c.t3 = x / 64 % 256 := h.t3.trans ((entryNat_identityTable (by omega)).trans (by omega))
  have t5 : c.t5 = x / 16 % 256 := h.t5.trans ((entryNat_identityTable (by omega)).trans (by omega))
  have t7 : c.t7 = x / 4 % 256 := h.t7.trans ((entryNat_identityTable (by omega)).trans (by omega))
  have t9 : c.t9 = x % 256 := h.t9.trans ((entryNat_identityTable (by omega)).trans (by omega))
  rw [h.row, t1, t3, t5, t7, t9]
  omega

/-- With the identity table each result of RTL is its index: the row moved right by two bits at a time. -/
theorem RtlLookups.row_of_identity (h : RtlLookups identityTable x y c) (hx : x < 65536) : y = x := by
  have t1 : c.t1 = x % 256 := h.t1.trans (entryNat_identityTable (by omega))
  have t3 : c.t3 = x / 4 % 256 := h.t3.trans ((entryNat_identityTable (by omega)).trans (by omega))
  have t5 : c.t5 = x / 16 % 256 := h.t5.trans ((entryNat_identityTable (by omega)).trans (by omega))
  have t7 : c.t7 = x / 64 % 256 := h.t7.trans ((entryNat_identityTable (by omega)).trans (by omega))
  have t9 : c.t9 = x / 256 := h.t9.trans ((entryNat_identityTable (by omega)).trans (by omega))
  rw [h.row, t1, t3, t5, t7, t9]
  omega

end

theorem ltrRow_identityTable (x : Row) : ltrRow identityTable x = x := by
  obtain ⟨_, h⟩ := ltrRow_lookups identityTable x
  exact BitVec.eq_of_toNat_eq (h.row_of_identity x.isLt)

theorem rtlRow_identityTable (x : Row) : rtlRow identityTable x = x := by
  obtain ⟨_, h⟩ := rtlRow_lookups identityTable x
  exact BitVec.eq_of_toNat_eq (h.row_of_identity x.isLt)

/-! ### The eight rows -/

theorem ltrRows_get (t : Table) (rows : Rows) (i : Fin 8) : (ltrRows t rows)[i] = ltrRow t rows[i] := by
  simp [ltrRows]

theorem rtlRows_get (t : Table) (rows : Rows) (i : Fin 8) : (rtlRows t rows)[i] = rtlRow t rows[i] := by
  simp [rtlRows]

theorem rows_ext {a b : Rows} (h : ∀ i : Fin 8, a[i] = b[i]) : a = b := Vector.ext fun i hi => h ⟨i, hi⟩

theorem ltrRows_rtlRows {t t' : Table} (h : InverseOf t' t) (rows : Rows) : ltrRows t' (rtlRows t rows) = rows :=
  rows_ext fun i => by rw [ltrRows_get, rtlRows_get, ltrRow_rtlRow h]

theorem rtlRows_ltrRows {t t' : Table} (h : InverseOf t' t) (rows : Rows) : rtlRows t' (ltrRows t rows) = rows :=
  rows_ext fun i => by rw [rtlRows_get, ltrRows_get, rtlRow_ltrRow h]

theorem ltrRows_identityTable (rows : Rows) : ltrRows identityTable rows = rows :=
  rows_ext fun i => by rw [ltrRows_get, ltrRow_identityTable]

theorem rtlRows_identityTable (rows : Rows) : rtlRows identityTable rows = rows :=
  rows_ext fun i => by rw [rtlRows_get, rtlRow_identityTable]

/-! ### The lane's steps (R186) -/

section
variable {s : State} {st : Stage} {r : LaneRegs} {rows : Rows}

/-- The micro-operation that a lane's phase names computes the lane after its step. -/
theorem exec_of_compute {i : Instr} (hl : s.selLane = some (.run st r rows)) (hi : decode (.ph st.code) = .ok i)
    (hst : st ≠ .unpack) : exec i s = .next (s.setSelLane (computed (s.tableOf r.dir) r rows st)) := by
  have hmove : laneMove s = .run i s := by
    rw [laneMove, hl]
    simp only [Lane.phase, hi]
  rw [← laneMove_of_compute hl hst, hmove]
  rfl

theorem afterLtr_eq (d : Dir) : afterLtr d = if d = .enc then .arc else .cs := by cases d <;> rfl

theorem afterRtl_of_next {q : Fin 8} (hq : q.val = r.rnd.val + 1) (rows : Rows) :
    afterRtl r rows = .run .ltr ⟨r.dir, r.blk, q⟩ rows := by
  have hlt : r.rnd.val < 7 := by omega
  have hnext : (⟨r.rnd.val + 1, by omega⟩ : Fin 8) = q := Fin.ext hq.symm
  rw [afterRtl, dif_pos hlt, hnext]

theorem afterRtl_of_last (hr : r.rnd = 7) (rows : Rows) : afterRtl r rows = .run .unpack r rows :=
  dif_neg (by rw [hr]; exact Nat.lt_irrefl 7)

end

/-- Settles O37, by the lookups of LTR on each row. -/
theorem ltrSubstitutesEveryRow : Obligations.LtrSubstitutesEveryRow := by
  intro s r rows hl
  refine ⟨ltrRows (s.tableOf r.dir) rows, fun i => ?_, ?_⟩
  · obtain ⟨c, t1, t3, t5, t7, t9, hrow⟩ := ltrRow_lookups (s.tableOf r.dir) rows[i]
    exact ⟨_, _, c.t1, c.t3, c.t5, c.t7, c.t9, rfl, rfl, t1, t3, t5, t7, t9, by rw [ltrRows_get, hrow]⟩
  · rw [← afterLtr_eq]
    exact exec_of_compute hl rfl nofun

/-- Settles O38, by the lookups of RTL on each row. -/
theorem rtlSubstitutesEveryRow : Obligations.RtlSubstitutesEveryRow := by
  intro s r rows hl
  have hexec : exec .rtl s = .next (s.setSelLane (afterRtl r (rtlRows (s.tableOf r.dir) rows))) :=
    exec_of_compute hl rfl nofun
  refine ⟨rtlRows (s.tableOf r.dir) rows, fun i => ?_, fun q hq => ?_, fun hr => ?_⟩
  · obtain ⟨c, t1, t3, t5, t7, t9, hrow⟩ := rtlRow_lookups (s.tableOf r.dir) rows[i]
    exact ⟨_, _, c.t1, c.t3, c.t5, c.t7, c.t9, rfl, rfl, t1, t3, t5, t7, t9, by rw [rtlRows_get, hrow]⟩
  · rw [hexec, afterRtl_of_next hq]
    rfl
  · rw [hexec, afterRtl_of_last hr]
    rfl

end Sys2Proof.Machine
end

section
/-! PROOFS. The block as a bit matrix (R22): PACK and UNPACK (R151 to R153), CS by its columns (R158, R163, R164), the
rotation (R159) and ARC (R160, R163). -/

namespace Sys2Proof.Machine

/-! ### PACK and UNPACK (R153) -/

theorem packRows_get (b : Block) (i : Fin 8) :
    (packRows b)[i] = rowOf (b[2 * i.val]'(by omega)) (b[2 * i.val + 1]'(by omega)) := by
  simp [packRows]

theorem unpackRows_get_even (rows : Rows) (i : Fin 8) :
    (unpackRows rows)[2 * i.val]'(by omega) = hiByte rows[i] := by
  simp [unpackRows]

theorem unpackRows_get_odd (rows : Rows) (i : Fin 8) :
    (unpackRows rows)[2 * i.val + 1]'(by omega) = loByte rows[i] := by
  have hodd : (2 * i.val + 1) / 2 = i.val := by omega
  simp [unpackRows, hodd]

/-- Two blocks are equal if the two bytes of each row are. -/
theorem block_ext {a b : Block} (heven : ∀ i : Fin 8, a[2 * i.val]'(by omega) = b[2 * i.val]'(by omega))
    (hodd : ∀ i : Fin 8, a[2 * i.val + 1]'(by omega) = b[2 * i.val + 1]'(by omega)) : a = b := by
  refine Vector.ext fun k hk => ?_
  rcases Nat.even_or_odd' k with ⟨i, rfl | rfl⟩
  · exact heven ⟨i, by omega⟩
  · exact hodd ⟨i, by omega⟩

@[simp] theorem unpackRows_packRows (b : Block) : unpackRows (packRows b) = b :=
  block_ext (fun i => by rw [unpackRows_get_even, packRows_get, hiByte_rowOf])
    (fun i => by rw [unpackRows_get_odd, packRows_get, loByte_rowOf])

@[simp] theorem packRows_unpackRows (rows : Rows) : packRows (unpackRows rows) = rows :=
  rows_ext fun i => by rw [packRows_get, unpackRows_get_even, unpackRows_get_odd, rowOf_hiByte_loByte]

/-- Settles O42, by the two bytes of each row; columns 0 to 7 are its high byte, columns 8 to 15 its low byte. -/
theorem packAndUnpackAreInverse : Obligations.PackAndUnpackAreInverse := by
  refine ⟨unpackRows_packRows, packRows_unpackRows, fun b r k => ?_⟩
  have hhigh : 15 - k.val - 8 = 7 - k.val := by omega
  have hlow : 15 - (8 + k.val) = 7 - k.val := by omega
  rw [matrixBit, matrixBit, packRows_get, rowOf, BitVec.getLsbD_append, BitVec.getLsbD_append,
    if_neg (by simp only; omega), if_pos (by simp only; omega)]
  exact ⟨by rw [← hhigh], by rw [← hlow]⟩

/-! ### CS by its columns (R158) -/

/-- The rows are known from their columns. -/
theorem rows_ext_of_columns {a b : Rows} (h : ∀ c, gatherColumn a c = gatherColumn b c) : a = b := by
  refine rows_ext fun i => BitVec.eq_of_getLsbD_eq fun k hk => ?_
  have hbit (rows : Rows) : rows[i].getLsbD k = (gatherColumn rows ⟨15 - k, by omega⟩).getLsbD i.rev.val := by
    have hk' : 15 - (15 - k) = k := by omega
    rw [gatherColumn_getLsbD, Fin.rev_rev, matrixBit, hk']
  rw [hbit, hbit, h]

/-- What is scattered into a column is gathered from it. -/
theorem gatherColumn_scatterColumns (cols : Vector Byte 16) (c : Fin 16) :
    gatherColumn (scatterColumns cols) c = cols[c] := by
  refine BitVec.eq_of_getLsbD_eq fun b hb => ?_
  have hrev : 7 - (Fin.rev ⟨b, hb⟩ : Fin 8).val = b := by simp only [Fin.val_rev]; omega
  rw [gatherColumn_getLsbD _ c ⟨b, hb⟩, scatterColumns_bit, hrev]

/-- CS substitutes every column by itself. -/
theorem gatherColumn_csRows (t : Table) (rows : Rows) (c : Fin 16) :
    gatherColumn (csRows t rows) c = look t (gatherColumn rows c) := by
  rw [csRows, gatherColumn_scatterColumns, Fin.getElem_fin, Vector.getElem_ofFn]

theorem csRows_csRows {t t' : Table} (h : InverseOf t' t) (rows : Rows) : csRows t' (csRows t rows) = rows :=
  rows_ext_of_columns fun c => by rw [gatherColumn_csRows, gatherColumn_csRows, h]

theorem csRows_identityTable (rows : Rows) : csRows identityTable rows = rows :=
  rows_ext_of_columns fun c => by rw [gatherColumn_csRows, look_identityTable]

/-- The value of a string of bits, the lowest first. -/
theorem ofBits_eq_sum : ∀ {n : Nat} (f : Fin n → Bool), Nat.ofBits f = ∑ i, if f i then 2 ^ i.val else 0
  | 0, _ => rfl
  | n + 1, f => by
    have hshift (i : Fin n) : (if f i.succ then 2 ^ i.succ.val else 0) = 2 * if f i.succ then 2 ^ i.val else 0 := by
      rw [Fin.val_succ, pow_succ', mul_ite, mul_zero]
    have hlow : (if f 0 then 2 ^ (0 : Fin (n + 1)).val else 0) = (f 0).toNat := by cases f 0 <;> rfl
    rw [Nat.ofBits_succ, ofBits_eq_sum, Fin.sum_univ_succ, hlow, Finset.sum_congr rfl fun i _ => hshift i,
      ← Finset.mul_sum, Nat.add_comm]
    rfl

/-- A column as a number is the byte gathered from it. -/
theorem columnNat_eq (rows : Rows) (c : Fin 16) : columnNat rows c.val = (gatherColumn rows c).toNat := by
  rw [gatherColumn, BitVec.toNat_ofFnLE, ofBits_eq_sum, ← Equiv.sum_comp Fin.revPerm, Fin.sum_univ_def]
  refine congrArg List.sum (List.map_congr_left fun i _ => ?_)
  simp [matrixBit]

theorem afterCs_eq (d : Dir) : afterCs d = if d = .enc then .rtl else .arc := by cases d <;> rfl

/-- Settles O39, by the columns of CS. -/
theorem csSubstitutesEveryColumn : Obligations.CsSubstitutesEveryColumn := by
  intro s r rows hl
  refine ⟨csRows (s.tableOf r.dir) rows, fun c hc => ?_, ?_⟩
  · rw [columnNat_eq _ ⟨c, hc⟩, columnNat_eq _ ⟨c, hc⟩, gatherColumn_csRows, look_toNat]
  · rw [← afterCs_eq]
    exact exec_of_compute hl rfl nofun

/-- Settles O45, by the rows of LTR and RTL and the columns of CS. -/
theorem identityTableLeavesRowsUnchanged : Obligations.IdentityTableLeavesRowsUnchanged :=
  fun rows => ⟨ltrRows_identityTable rows, rtlRows_identityTable rows, csRows_identityTable rows⟩

/-! ### The rotation (R159) -/

/-- Settles O41: below bit 16 the bit moves with the left shift, past it it comes round with the right shift. -/
theorem rotationMovesEveryBit : Obligations.RotationMovesEveryBit := by
  intro v n k hn hk
  by_cases h0 : n = 0
  · rw [rotl16, if_pos h0, h0, Nat.add_zero, Nat.mod_eq_of_lt hk]
  rw [rotl16, if_neg h0, BitVec.getLsbD_or, BitVec.getLsbD_shiftLeft, BitVec.getLsbD_ushiftRight]
  rcases Nat.lt_or_ge (k + n) 16 with hlt | hge
  · have hout : v.getLsbD (16 - n + (k + n)) = false := BitVec.getLsbD_of_ge v _ (by omega)
    simp [Nat.mod_eq_of_lt hlt, hlt, hout]
  · have hmod : (k + n) % 16 = k + n - 16 := by omega
    have hback : 16 - n + (k + n - 16) = k := by omega
    have hshift : k + n - 16 < n := by omega
    simp [hmod, hback, hshift]

/-! ### ARC (R160) -/

theorem rc_eq_twoPow (i : Fin 8) : Config.rc[i] = BitVec.twoPow 16 (15 - 2 * i.val) := by
  revert i
  decide

theorem arcRows_get (q : Nat) (rows : Rows) (i : Fin 8) :
    (arcRows q rows)[i] = rows[i] ^^^ rotl16 Config.rc[i] (2 * q) := by
  simp [arcRows]

/-- ARC's value for row `i` is a single bit, the row's constant bit moved up by `2q`. -/
theorem rotl16_rc_getLsbD {q k : Nat} (i : Fin 8) (hq : q ≤ 7) (hk : k < 16) :
    (rotl16 Config.rc[i] (2 * q)).getLsbD k = decide (k = (15 - 2 * i.val + 2 * q) % 16) := by
  have hfrom : ((k + 16 - 2 * q) % 16 + 2 * q) % 16 = k := by omega
  have hmove := rotationMovesEveryBit Config.rc[i] (2 * q) ((k + 16 - 2 * q) % 16) (by omega) (by omega)
  rw [hfrom] at hmove
  rw [hmove, rc_eq_twoPow, BitVec.getLsbD_twoPow, ← Bool.decide_and, decide_eq_decide]
  omega

theorem arcRows_arcRows (q : Nat) (rows : Rows) : arcRows q (arcRows q rows) = rows :=
  rows_ext fun i => by rw [arcRows_get, arcRows_get, BitVec.xor_assoc, BitVec.xor_self, BitVec.xor_zero]

/-- Settles O44, by the columns of CS and the rows of ARC. -/
theorem csAndArcUndoThemselves : Obligations.CsAndArcUndoThemselves :=
  ⟨fun _ _ rows _ h => csRows_csRows h rows, fun q rows _ => arcRows_arcRows q rows⟩

theorem afterArc_eq (d : Dir) : afterArc d = if d = .enc then .cs else .rtl := by cases d <;> rfl

theorem arcIndex_of_dir {r : LaneRegs} {q : Nat}
    (h : r.dir = .enc ∧ q = r.rnd.val ∨ r.dir = .dec ∧ q = 7 - r.rnd.val) : arcIndex r = q := by
  rcases h with ⟨hd, rfl⟩ | ⟨hd, rfl⟩ <;> rw [arcIndex, hd]

theorem arcIndex_le (r : LaneRegs) : arcIndex r ≤ 7 := by
  unfold arcIndex
  split <;> omega

/-- Settles O40, by the single bit that ARC flips in each row. -/
theorem arcFlipsOneBitPerRow : Obligations.ArcFlipsOneBitPerRow := by
  intro s r rows q hl hq
  obtain rfl := arcIndex_of_dir hq
  refine ⟨arcRows (arcIndex r) rows, fun i k hk => ?_, ?_⟩
  · rw [arcRows_get, BitVec.getLsbD_xor, rotl16_rc_getLsbD i (arcIndex_le r) hk]
  · rw [← afterArc_eq]
    exact exec_of_compute hl rfl nofun

end Sys2Proof.Machine
end

section
/-! PROOFS. Decryption with the inverse table undoes encryption, and the other way round (R180, R181, R184, R188): round
`7 - q` of the one undoes round `q` of the other. -/

namespace Sys2Proof.Machine

section
variable {t t' : Table}

/-- The four operations of a round are undone in the opposite order; the constant index is `q` again. -/
theorem decRound_encRound (h : InverseOf t' t) {q : Nat} (hq : q ≤ 7) (rows : Rows) :
    decRound t' (7 - q) (encRound t q rows) = rows := by
  rw [decRound, encRound, Nat.sub_sub_self hq, ltrRows_rtlRows h, csRows_csRows h, arcRows_arcRows, rtlRows_ltrRows h]

theorem encRound_decRound (h : InverseOf t' t) (q : Nat) (rows : Rows) :
    encRound t' (7 - q) (decRound t q rows) = rows := by
  rw [encRound, decRound, ltrRows_rtlRows h, arcRows_arcRows, csRows_csRows h, rtlRows_ltrRows h]

end

section
variable {f g : Nat → Rows → Rows}

/-- When round `7 - q` of `g` undoes round `q` of `f`, the first `n` rounds of `g` undo the last `n` of the eight
rounds of `f`. -/
theorem rounds_undo_last (h : ∀ q ≤ 7, ∀ rows, g (7 - q) (f q rows) = rows) (rows : Rows) :
    ∀ n ≤ 8, rounds g n (rounds f 8 rows) = rounds f (8 - n) rows
  | 0, _ => rfl
  | n + 1, hn => by
    have hround : 8 - n = 7 - n + 1 := by omega
    have hback : 7 - (7 - n) = n := by omega
    calc rounds g (n + 1) (rounds f 8 rows)
      _ = g n (rounds f (7 - n + 1) rows) := by rw [rounds, rounds_undo_last h rows n (by omega), hround]
      _ = g (7 - (7 - n)) (f (7 - n) (rounds f (7 - n) rows)) := by rw [rounds, hback]
      _ = rounds f (8 - (n + 1)) rows := by rw [h _ (Nat.sub_le 7 n), Nat.sub_add_eq, Nat.sub_right_comm]

theorem rounds_undo (h : ∀ q ≤ 7, ∀ rows, g (7 - q) (f q rows) = rows) (rows : Rows) :
    rounds g 8 (rounds f 8 rows) = rows :=
  rounds_undo_last h rows 8 le_rfl

end

section
variable {t t' : Table}

theorem decBlock_encBlock (h : InverseOf t' t) (b : Block) : decBlock t' (encBlock t b) = b := by
  rw [decBlock, encBlock, packRows_unpackRows, Config.nRounds, rounds_undo fun _ hq => decRound_encRound h hq,
    unpackRows_packRows]

theorem encBlock_decBlock (h : InverseOf t' t) (b : Block) : encBlock t' (decBlock t b) = b := by
  rw [encBlock, decBlock, packRows_unpackRows, Config.nRounds, rounds_undo fun q _ => encRound_decRound h q,
    unpackRows_packRows]

end

/-- Settles O47, round by round; encryption undoes decryption because the permutation undoes its inverse in turn. -/
theorem decryptionUndoesEncryption : Obligations.DecryptionUndoesEncryption :=
  fun _ _ b ht h => ⟨decBlock_encBlock h b, encBlock_decBlock (h.symm ht) b⟩

end Sys2Proof.Machine
end

section
/-! PROOFS. The turns of SEQ that are enabled and those that are not (R185, R186, R202, R203), and that a cipher command
completes (R203). -/

namespace Sys2Proof.Machine

section
variable {s : State} {i : Instr} {d : Dir}

/-- The four cipher commands each have a direction (R185). -/
theorem exists_dirOf? (h : i = .encb ∨ i = .decb ∨ i = .enc ∨ i = .dec) : ∃ d, dirOf? i = some d := by
  rcases h with rfl | rfl | rfl | rfl <;> exact ⟨_, rfl⟩

/-! ### Dispatch (R202) -/

/-- While blocks are pending SEQ's step of a cipher command is the dispatch. -/
theorem exec_of_pending (hd : dirOf? i = some d) (hb : s.busy = true) (hr : s.running = some i) (hp : s.pend ≠ []) :
    exec i s = .next (dispatch d s) :=
  (exec_of_runningCipher hd hb hr).trans (if_pos hp)

theorem dispatch_of_enabled (d : Dir) (hk : s.sel.blk ∈ s.pend) (hl : s.selLane = some .idle) :
    dispatch d s = { s with pend := s.pend.erase s.sel.blk }.setSelLane (activate d s.sel.blk) :=
  if_pos ⟨hk, hl⟩

theorem dispatch_of_notEnabled (d : Dir) (h : s.sel.blk ∉ s.pend ∨ s.selLane ≠ some .idle) : dispatch d s = s :=
  if_neg fun ⟨hk, hl⟩ => h.elim (absurd hk) (absurd hl)

/-- Settles O20: the dispatch takes the block out of PEND, where it stands once, and activates the lane. -/
theorem dispatchActivatesAnIdleLane : Obligations.DispatchActivatesAnIdleLane := by
  intro s i d hb hr hi hk hnodup hl
  have hd : dirOf? i = some d := by
    rcases hi with ⟨rfl, rfl⟩ | ⟨rfl, rfl⟩ | ⟨rfl, rfl⟩ | ⟨rfl, rfl⟩ <;> rfl
  refine ⟨s.pend.erase s.sel.blk, fun k => ?_, ?_⟩
  · rw [hnodup.mem_erase_iff, and_comm]
  · rw [exec_of_pending hd hb hr (List.ne_nil_of_mem hk), dispatch_of_enabled d hk hl]
    rfl

/-! ### Moves that are not enabled -/

/-- A command of the table of R93 has the two moments of a command. -/
theorem exists_exec_eq_command (h : profileOf i ≠ none) (s : State) : ∃ work, exec i s = command i work s := by
  cases i with
  | genlut | derinv | encb | decb | enc | dec | zero | ldlut | ldinv | rdlut | rdinv => exact ⟨_, rfl⟩
  | abort | clr | pack | ltr | arc | cs | rtl | unpack => exact absurd rfl h

/-- While a lane is active the completion of a cipher command is not enabled (R203). -/
theorem cipherWork_of_active (i : Instr) (d : Dir) (hp : s.pend = []) (ha : s.allIdle ≠ true) :
    cipherWork i d s = .next s := by
  rw [cipherWork, if_neg (not_not_intro hp), if_neg ha]

/-- A micro-operation acts on a lane in its own phase only (R185, R186). -/
theorem exec_of_otherPhase {p : BitVec 3} (hd : decode (.ph p) = .ok i) (h : ∀ l, s.selLane = some l → l.phase ≠ p) :
    exec i s = .next s := by
  have hcode : encode i = .ph p := encode_of_decodePh hd
  cases i with
  | pack | ltr | arc | cs | rtl | unpack =>
    obtain rfl := Code.ph.inj hcode
    simp only [exec, execPack, execLtr, execArc, execCs, execRtl, execUnpack]
    split
    · next hl => exact absurd rfl (h _ hl)
    · rfl
  | _ => cases hcode

end

/-- Settles O60: each move looks at what enables it. -/
theorem movesThatAreNotEnabledChangeNothing : Obligations.MovesThatAreNotEnabledChangeNothing := by
  refine ⟨fun i s hprofile hb hr => ?_, fun i s hi hb hr => ⟨fun hp hsel => ?_, fun hp hactive => ?_⟩,
    fun i p s hd h => exec_of_otherPhase hd h⟩
  · obtain ⟨work, hexec⟩ := exists_exec_eq_command hprofile s
    rw [hexec, command_of_other work hb hr]
  · obtain ⟨d, hd⟩ := exists_dirOf? hi
    rw [exec_of_pending hd hb hr hp, dispatch_of_notEnabled d hsel]
  · obtain ⟨d, hd⟩ := exists_dirOf? hi
    obtain ⟨l, hl, hne⟩ := hactive
    have ha : s.allIdle ≠ true := fun h => hne ((allIdle_iff s).1 h l hl)
    rw [exec_of_runningCipher hd hb hr, cipherWork_of_active i d hp ha]

/-! ### Completion (R203) -/

/-- Settles O53: at the end of the count of steps the command completes. -/
theorem cipherCommandsEnd : Obligations.CipherCommandsEnd := by
  intro s i d hacc hsched
  obtain ⟨t, hrun, hend⟩ := hacc.run_completes hsched
  exact ⟨t, hrun, hend.busy, hend.done⟩

end Sys2Proof.Machine
end

section
/-! PROOFS. What the block functions give on a block and on a buffer: with the identity table the round constants alone
(R164, R189), and encryption and decryption of a buffer one after the other (R188, R207). -/

namespace Sys2Proof.Machine

/-! ### The identity table (R189) -/

/-- The constants that ARC has added to row `i` after `n` rounds, when round `q` uses the constant index `p q`. -/
def arcMask (p : Nat → Nat) (i : Fin 8) : Nat → Row
  | 0 => 0
  | n + 1 => arcMask p i n ^^^ rotl16 Config.rc[i] (2 * p n)

theorem encRound_identityTable : encRound identityTable = arcRows :=
  funext₂ fun q rows => by rw [encRound, rtlRows_identityTable, csRows_identityTable, ltrRows_identityTable]

theorem decRound_identityTable : decRound identityTable = fun q => arcRows (7 - q) :=
  funext₂ fun q rows => by rw [decRound, rtlRows_identityTable, csRows_identityTable, ltrRows_identityTable]

/-- Rounds that are ARC alone add up their constants. -/
theorem rounds_arcRows_get (p : Nat → Nat) (rows : Rows) (i : Fin 8) :
    ∀ n, (rounds (fun q => arcRows (p q)) n rows)[i] = rows[i] ^^^ arcMask p i n
  | 0 => (BitVec.xor_zero).symm
  | n + 1 => by rw [rounds, arcRows_get, rounds_arcRows_get p rows i n, arcMask, BitVec.xor_assoc]

/-- The eight constants of a row hold every second bit, in whichever order the rounds take them (R160, R184). -/
theorem arcMask_eight (i : Fin 8) : arcMask (fun q => q) i 8 = 0xAAAA ∧ arcMask (fun q => 7 - q) i 8 = 0xAAAA := by
  revert i
  decide

theorem hiByte_xor (x y : Row) : hiByte (x ^^^ y) = hiByte x ^^^ hiByte y := BitVec.extractLsb'_xor

theorem loByte_xor (x y : Row) : loByte (x ^^^ y) = loByte x ^^^ loByte y := BitVec.extractLsb'_xor

/-- Eight rounds that are ARC alone, with all eight constants, add 0xAA to each byte of the block. -/
theorem unpackRows_rounds_arcRows {p : Nat → Nat} (hmask : ∀ i, arcMask p i 8 = 0xAAAA) (b : Block) :
    unpackRows (rounds (fun q => arcRows (p q)) 8 (packRows b)) = Vector.ofFn fun i => b[i] ^^^ (0xAA : Byte) := by
  refine block_ext (fun i => ?_) (fun i => ?_)
  · rw [unpackRows_get_even, rounds_arcRows_get, hmask, hiByte_xor, packRows_get, hiByte_rowOf, Vector.getElem_ofFn]
    rfl
  · rw [unpackRows_get_odd, rounds_arcRows_get, hmask, loByte_xor, packRows_get, loByte_rowOf, Vector.getElem_ofFn]
    rfl

/-- Settles O46: with the identity table each round is ARC alone, and the constants of the eight rounds add up. -/
theorem identityTableXorsAA : Obligations.IdentityTableXorsAA := by
  intro b
  rw [encBlock, decBlock, encRound_identityTable, decRound_identityTable]
  exact ⟨unpackRows_rounds_arcRows (fun i => (arcMask_eight i).1) b,
    unpackRows_rounds_arcRows (fun i => (arcMask_eight i).2) b⟩

/-! ### A buffer (R207) -/

/-- Settles O50: block by block, decryption undoes encryption. -/
theorem bulkDecryptionRestoresTheBuffer : Obligations.BulkDecryptionRestoresTheBuffer := by
  intro t t' m a b c n k _ hinverse hwf hk
  have hwf' := netEffect_wf (encBlock t) m a b hwf n
  rw [netEffect_block _ _ _ _ hwf' n hk, netEffect_block _ _ _ _ hwf n hk, decBlock_encBlock hinverse]

end Sys2Proof.Machine
end

section
/-! PROOFS. One lane alone on the schedule (R180, R181, R186, R187): every turn is one step of its block, the rows stay
those of the block function, and nothing but the lane changes before UNPACK. -/

namespace Sys2Proof.Machine

/-- `s` when the turn of lane `k` has been taken from the schedule and `ts` is left. -/
def State.atLane (s : State) (k : Nat) (ts : List Turn) : State := { s with sched := ts, sel := ⟨s.sel.blk, k⟩ }

/-- `s` when lane `k` has worked off block `blk` in direction `d` and the schedule holds `rest`. -/
def State.withBlockDone (s : State) (k : Nat) (d : Dir) (blk : Nat) (rest : List Turn) : State :=
  { s with
      sched := rest, sel := ⟨s.sel.blk, k⟩, lanes := s.lanes.set k .idle,
      mem := s.mem.writeBytes (blockAddr s.dst blk) (resultBlock s d blk).toList }

/-- Lane `k` holds `l`, which works on block `blk` in direction `d` as the block function does; its next turns are on
the schedule, as many as it still needs, and its block is inside MEM and not contested. -/
structure LaneAlone (s : State) (k : Nat) (d : Dir) (blk : Nat) (rest : List Turn) (l : Lane) : Prop where
  lane : s.lanes[k]? = some l
  regs : ∃ r, l.regs? = some r ∧ r.dir = d ∧ r.blk = blk
  track : OnTrack d (s.tableOf d) (sourceBlock s) l
  sched : s.sched = List.replicate l.stepsLeft (.lane k) ++ rest
  calm : s.contested = []
  source : s.holds (blockAddr s.src blk) 16
  dest : s.holds (blockAddr s.dst blk) 16

section
variable {s : State} {k blk : Nat} {d : Dir} {rest ts : List Turn} {l l' : Lane} {r : LaneRegs}

theorem step_of_laneTurn (h : s.sched = .lane k :: ts) : step s = (laneMove (s.atLane k ts)).outcome := by
  have ht : s.turn = .lane k := by rw [State.turn, h]
  rw [step_of_lane ht, State.popTurn, h]
  rfl

/-- PACK without contested bytes takes the source block (R151). -/
theorem packed_of_calm (r : LaneRegs) (h : s.contested = []) :
    packed r s = s.setSelLane (.run .ltr r (packRows (sourceBlock s r.blk))) := by
  rw [packed, afterEngineRead_of_calm s 16 h, engineBytes_of_calm s _ 16 h, sourceBlock]

/-- What the lane held before its block was done does not show afterwards. -/
theorem withBlockDone_setSelLane (s : State) (k blk : Nat) (d : Dir) (ts rest : List Turn) (l' : Lane) :
    ((s.atLane k ts).setSelLane l').withBlockDone k d blk rest = s.withBlockDone k d blk rest := by
  have hlanes : (s.lanes.set k l').set k .idle = s.lanes.set k .idle := List.set_set ..
  cases d <;> simp only [State.withBlockDone, State.setSelLane, State.atLane, hlanes] <;> rfl

/-- A lane that has to take `n + 1` steps takes one, and `n` are left. -/
theorem LaneAlone.next (h : LaneAlone s k d blk rest l)
    (hmove : (laneMove (s.atLane k (List.replicate l'.stepsLeft (.lane k) ++ rest))).outcome =
      .next ((s.atLane k (List.replicate l'.stepsLeft (.lane k) ++ rest)).setSelLane l'))
    (hcount : l'.stepsLeft + 1 = l.stepsLeft) (hregs : ∃ r, l'.regs? = some r ∧ r.dir = d ∧ r.blk = blk)
    (htrack : OnTrack d (s.tableOf d) (sourceBlock s) l') :
    ∃ u, step s = .next u ∧ LaneAlone u k d blk rest l' ∧
      u.withBlockDone k d blk rest = s.withBlockDone k d blk rest := by
  have hsched : s.sched = .lane k :: (List.replicate l'.stepsLeft (.lane k) ++ rest) := by
    rw [h.sched, ← hcount]
    rfl
  obtain ⟨hk, -⟩ := List.getElem?_eq_some_iff.1 h.lane
  refine ⟨_, (step_of_laneTurn hsched).trans hmove, ?_, withBlockDone_setSelLane ..⟩
  refine ⟨List.getElem?_set_self hk, hregs, ?_, rfl, h.calm, h.source, h.dest⟩
  cases d <;> exact htrack

/-- A turn of the lane is a step of its block, and UNPACK is the last one. -/
theorem LaneAlone.step (h : LaneAlone s k d blk rest l) :
    (∃ l' u, step s = .next u ∧ LaneAlone u k d blk rest l' ∧ l'.stepsLeft + 1 = l.stepsLeft ∧
      u.withBlockDone k d blk rest = s.withBlockDone k d blk rest) ∨
    l.stepsLeft = 1 ∧ step s = .next (s.withBlockDone k d blk rest) := by
  obtain ⟨r, hr, hd, hblk⟩ := h.regs
  subst hd hblk
  have hl (ts : List Turn) : (s.atLane k ts).selLane = some l := h.lane
  cases l with
  | idle => cases hr
  | pack r' =>
    cases hr
    have hcount : (Lane.run .ltr r (packRows (sourceBlock s r.blk))).stepsLeft + 1 = (Lane.pack r).stepsLeft := by
      have := r.rnd.isLt
      simp only [Lane.stepsLeft, Stage.stepsLeft]
      omega
    have hmove (ts : List Turn) := (laneMove_of_pack (hl ts) h.source).trans (congrArg _ (packed_of_calm r h.calm))
    obtain ⟨u, hs, hu, hdone⟩ := h.next (hmove _) hcount ⟨r, rfl, rfl, rfl⟩ (onTrack_packed h.track)
    exact .inl ⟨_, u, hs, hu, hcount, hdone⟩
  | run st r' rows =>
    cases hr
    by_cases hst : st = .unpack
    · subst hst
      have hresult : unpackRows rows = resultBlock s r.dir r.blk := unpackRows_of_onTrack h.track
      refine .inr ⟨rfl, (step_of_laneTurn h.sched).trans ((laneMove_of_unpack (hl _) h.dest).trans ?_)⟩
      rw [unpacked_eq, hresult]
      rfl
    · have hcount := computed_stepsLeft (s.tableOf r.dir) r rows hst
      have hmove (ts : List Turn) : (laneMove (s.atLane k ts)).outcome =
          .next ((s.atLane k ts).setSelLane (computed (s.tableOf r.dir) r rows st)) :=
        laneMove_of_compute (hl ts) hst
      obtain ⟨u, hs, hu, hdone⟩ :=
        h.next (hmove _) hcount (computed_regs _ r rows st) (onTrack_computed h.track rfl hst)
      exact .inl ⟨_, u, hs, hu, hcount, hdone⟩

/-- The turns that the lane still needs finish its block. -/
theorem LaneAlone.run (h : LaneAlone s k d blk rest l) :
    core.run l.stepsLeft s = .next (s.withBlockDone k d blk rest) := by
  generalize hn : l.stepsLeft = n
  induction n generalizing s l with
  | zero =>
    obtain ⟨_, _, -, -, hcount, -⟩ | ⟨hcount, -⟩ := h.step <;> omega
  | succ n ih =>
    obtain ⟨l', u, hs, hu, hcount, hdone⟩ | ⟨hcount, hs⟩ := h.step
    · rw [run_succ_of_step hs, ih hu (by omega), hdone]
    · obtain rfl : n = 0 := by omega
      exact run_succ_of_step hs

end

/-- Settles O48: from PACK of round 0 a lane needs 34 turns. -/
theorem laneRunsOneBlockInThirtyFourSteps : Obligations.LaneRunsOneBlockInThirtyFourSteps := by
  intro s l r rest hl hr hsched hcalm hsrc hdst
  have hcount : (Lane.pack r).stepsLeft = 34 := by rw [Lane.stepsLeft, hr]; rfl
  have halone : LaneAlone s l r.dir r.blk rest (.pack r) :=
    ⟨hl, ⟨r, rfl, rfl, rfl⟩, hr, hcount ▸ hsched, hcalm, hsrc, hdst⟩
  exact hcount ▸ halone.run

end Sys2Proof.Machine
end

section
/-! PROOFS. The control requests ABORT and CLR (R34, R96, R224 to R226): what each control word asks for, and what the
request does to the running command or to the status. -/

namespace Sys2Proof.Machine

section
variable {s : State} {w : Word} {rest : List HostTxn}

/-! ### What a control word asks for (R34, R96) -/

theorem decode_ctrlw_of_abort (h0 : w.getLsbD 0 = true) : decode (.ctrlw w) = .ok (.abort (w.getLsbD 1)) := by
  rw [decode, decodeCtrlw, if_pos h0]

theorem decode_ctrlw_of_clr (h0 : w.getLsbD 0 = false) (h1 : w.getLsbD 1 = true) : decode (.ctrlw w) = .ok .clr := by
  rw [decode, decodeCtrlw, h0, h1]
  rfl

theorem decode_ctrlw_of_noRequest (h0 : w.getLsbD 0 = false) (h1 : w.getLsbD 1 = false) :
    decode (.ctrlw w) = .error .noRequest := by
  rw [decode, decodeCtrlw, h0, h1]
  rfl

/-- A write to CTRL that makes no request is dropped (R226). -/
theorem step_of_noRequest (h : HostTurn s (.wr 5 w) rest) (h0 : w.getLsbD 0 = false) (h1 : w.getLsbD 1 = false) :
    step s = .next (s.afterTxn rest) := by
  rw [step_of_write h]
  simp [hostWrite, decode_ctrlw_of_noRequest h0 h1, Move.outcome]

/-! ### What the request does (R224 to R226) -/

theorem execAbort_of_zero (c : Bool) (hb : s.busy = true) (hz : s.running = some .zero) :
    execAbort c s = .next s := by
  rw [execAbort, if_pos hb, if_pos hz]

theorem execClr_of_busy (hb : s.busy = true) : execClr s = .next s := by
  rw [execClr_eq, if_pos hb]

theorem execClr_of_idle (hb : s.busy = false) : execClr s = .next (clearStatus s) := by
  rw [execClr_eq, if_neg (by simp [hb])]

/-- What an abort may leave unspecified: LUT of GENLUT and LDLUT, INV of DERINV and LDINV, nothing else (R224). -/
theorem spoilTable_frame (i : Option Instr) (s : State) :
    ∃ (lut' inv' : Table) (free' : Nat),
      (i ≠ some .genlut → i ≠ some .ldlut → lut' = s.lut) ∧
      (i ≠ some .derinv → i ≠ some .ldinv → inv' = s.inv) ∧
      spoilTable i s = { s with lut := lut', inv := inv', free := free' } := by
  rcases spoilTable_cases i s with ⟨hi, e⟩ | ⟨hi, e⟩ | ⟨-, e⟩
  · exact ⟨_, s.inv, _, fun hg hl => (hi.elim hg hl).elim, fun _ _ => rfl, e⟩
  · exact ⟨s.lut, _, _, fun _ _ => rfl, fun hd hl => (hi.elim hd hl).elim, e⟩
  · exact ⟨s.lut, s.inv, s.free, fun _ _ => rfl, fun _ _ => rfl, e⟩

end

/-! ### The statements -/

/-- Settles O32: the lanes stop, the table being written is spoiled, and the command ends with Aborted. -/
theorem abortStopsARunningCommand : Obligations.AbortStopsARunningCommand := by
  intro s c hb hz
  obtain ⟨lut', inv', free', hlut, hinv, hspoil⟩ := spoilTable_frame s.running (stopLanes s)
  have habort : execAbort c s = .next (runError .aborted (spoilTable s.running (stopLanes s))) :=
    execAbort_of_running c hb hz
  rw [hspoil] at habort
  exact ⟨lut', inv', free', hlut, hinv, habort⟩

/-- Settles O33: with bit 0 the word is ABORT with the CLR bit, without it CLR; while idle both clear the status. -/
theorem clrClearsTheStatus : Obligations.ClrClearsTheStatus := by
  intro s w rest h hb h1
  have hidle : (s.afterTxn rest).busy = false := hb
  cases h0 : w.getLsbD 0 with
  | true =>
    have hd : decode (.ctrlw w) = .ok (.abort true) := h1 ▸ decode_ctrlw_of_abort h0
    exact (step_of_controlWrite h hd).trans (execAbort_of_idle true hidle)
  | false => exact (step_of_controlWrite h (decode_ctrlw_of_clr h0 h1)).trans (execClr_of_idle hidle)

/-- Settles O34: a request outside its case leaves the state that the HOST's transaction leaves. -/
theorem controlRequestsOutsideTheirCaseDoNothing : Obligations.ControlRequestsOutsideTheirCaseDoNothing := by
  refine ⟨fun s w rest h hcase => ?_, fun s hb => ?_, fun s hb => ?_⟩
  · rcases hcase with ⟨h0, h1, hb⟩ | ⟨h0, hb, hz⟩ | ⟨h1, h0, hb⟩ | ⟨h0, h1⟩
    · have hd : decode (.ctrlw w) = .ok (.abort false) := h1 ▸ decode_ctrlw_of_abort h0
      exact (step_of_controlWrite h hd).trans (execAbort_of_idle false hb)
    · exact (step_of_controlWrite h (decode_ctrlw_of_abort h0)).trans (execAbort_of_zero _ hb hz)
    · exact (step_of_controlWrite h (decode_ctrlw_of_clr h0 h1)).trans (execClr_of_busy hb)
    · exact step_of_noRequest h h0 h1
  · exact ⟨execClr_of_idle hb, execAbort_of_idle true hb, execAbort_of_idle false hb⟩
  · exact ⟨execClr_of_busy hb, fun hz c => execAbort_of_zero c hb hz⟩

end Sys2Proof.Machine
end

section
/-! PROOFS. ENT's turn (R262, R263): a GENLUT that waits gets the next answer, and nothing else is answered. -/

namespace Sys2Proof.Machine

section
variable {s : State} {a : EntAnswer} {rest : List EntAnswer}

/-- A GENLUT that waits takes the head of ENT's queue. -/
theorem entStep_of_waiting (hb : s.busy = true) (hr : s.running = some .genlut) (hans : s.entAns = none)
    (hqueue : s.entScript = a :: rest) : entStep s = { s with entAns := some a, entScript := rest } := by
  rw [entStep, if_pos ⟨hb, hr, hans⟩, hqueue]

/-- Each condition of an answer is needed. -/
theorem entStep_of_notWaiting
    (h : s.busy = false ∨ s.running ≠ some .genlut ∨ s.entAns ≠ none ∨ s.entScript = []) : entStep s = s := by
  rcases entStep_cases s with ⟨a, rest, hb, hr, hans, hqueue, -⟩ | hsame
  · rcases h with hidle | hother | hanswered | hempty
    · cases hb.symm.trans hidle
    · exact absurd hr hother
    · exact absurd hans hanswered
    · cases hqueue.symm.trans hempty
  · exact hsame

end

/-- Settles O23: ENT's step, on the state whose schedule has moved on. -/
theorem entAnswersAWaitingGenlutOnce : Obligations.EntAnswersAWaitingGenlutOnce := by
  intro s hturn
  refine ⟨fun a rest hb hr hans hqueue => ?_, fun h => ?_⟩
  · exact (step_of_ent hturn).trans (congrArg _ (entStep_of_waiting (s := s.popTurn) hb hr hans hqueue))
  · exact (step_of_ent hturn).trans (congrArg _ (entStep_of_notWaiting (s := s.popTurn) h))

end Sys2Proof.Machine
end
